-- ==== Sys2Proof/Word.lean ====
section
/-! DEFINITION. The words of SPIC: a byte of the caller's memory, an element or register word of 16 bits, a 32-bit
operand or cursor, a 64-bit command word (00_scope R7, R8; 20_memory R60; 30_encoding R90). All are unsigned. -/

namespace Sys2Proof

/-- One byte of the caller's memory. -/
abbrev Byte := BitVec 8

/-- A buffer element or a register word. An 8-bit element is held in bits 7 to 0 (10_state R39). -/
abbrev Half := BitVec 16

/-- A frequency in Hz, an element count or a cursor (00_scope R7, `FREQ_BITS` and `LEN_BITS`). -/
abbrev Word := BitVec 32

/-- One command word (30_encoding R90, `CMD_BITS`). -/
abbrev CmdWord := BitVec 64

end Sys2Proof
end

