-- ==== Sys2Proof/Syntax.lean ====
section
/-! DEFINITION. The twelve commands of SPIC, one constructor per row of the opcode table (30_encoding R93). -/

namespace Sys2Proof

/-- Transfer Width (00_scope R11, 10_state R20): the element size of the Transaction Buffer. -/
inductive Width where
  /-- Eight-bit. -/
  | w8
  /-- Sixteen-bit. -/
  | w16
  deriving DecidableEq, Repr, Inhabited

/-- A command with its operands (30_encoding R92). `w` is the target width, `cpol` true is idle-high, `cpha` true is
capture-on-second-edge, `rate` is `f_req` in Hz and `n` the element count; both are counts, bounded by `WellFormed`. -/
inductive Instr where
  /-- CFGC: construct a Controller handle (41_config R130). -/
  | cfgc (w : Width) (cpol cpha : Bool) (rate : Nat)
  /-- CFGP: construct a Peripheral-role handle (41_config R136). -/
  | cfgp (w : Width) (cpol cpha : Bool)
  /-- ENA: set the enable bit (41_config R139). -/
  | ena
  /-- DIS: clear the enable bit (41_config R140). -/
  | dis
  /-- TO8: convert the handle to 8-bit elements (41_config R141). -/
  | to8
  /-- TO16: convert the handle to 16-bit elements (41_config R142). -/
  | to16
  /-- RST: reset pulse preserving the control fields (41_config R144). -/
  | rst
  /-- REL: release the handle (41_config R146). -/
  | rel
  /-- XFER8: full-duplex transfer of `n` 8-bit elements (43_transfer R170). -/
  | xfer8 (n : Nat)
  /-- XFER16: full-duplex transfer of `n` 16-bit elements (43_transfer R180). -/
  | xfer16 (n : Nat)
  /-- WR8: send-only transfer of `n` 8-bit elements (44_write R200). -/
  | wr8 (n : Nat)
  /-- WR16: send-only transfer of `n` 16-bit elements (44_write R208). -/
  | wr16 (n : Nat)
  deriving DecidableEq, Repr

end Sys2Proof
end

