-- ==== Sys2Proof/WellFormed.lean ====
section
/-! DEFINITION. When a command has an encoding: its numeric operand fits the 32-bit field `ARG` (30_encoding R90, R92).
Every other operand is well-formed by its type. -/

namespace Sys2Proof

/-- The operand fits `ARG[31:0]`, an unsigned integer of 32 bits (30_encoding R92). -/
def fitsArg (v : Nat) : Bool := decide (v < 2 ^ 32)

/-- The command is the meaning of some command word (30_encoding R92): `rate` and `n` fit 32 bits. -/
def Instr.wellFormed : Instr → Bool
  | .cfgc _ _ _ rate => fitsArg rate
  | .cfgp _ _ _ => true
  | .ena => true
  | .dis => true
  | .to8 => true
  | .to16 => true
  | .rst => true
  | .rel => true
  | .xfer8 n => fitsArg n
  | .xfer16 n => fitsArg n
  | .wr8 n => fitsArg n
  | .wr16 n => fitsArg n

/-- `Instr.wellFormed` as a proposition. -/
abbrev Instr.WellFormed (i : Instr) : Prop := i.wellFormed = true

end Sys2Proof
end

