-- ==== Sys2Proof/Decode.lean ====
section
/-! DEFINITION. Decoding and encoding of command words (30_encoding R90 to R95), the opcode map with its matches and masks
(R93), and the textual form of a command (R102). Decoding is total: a word is one command or illegal, with a name for
what is wrong with it (R94). -/

namespace Sys2Proof

/-- Why a word is illegal (30_encoding R94). The response does not say which (60_exceptions R224). -/
inductive Illegal where
  /-- `OPC` is none of the twelve. -/
  | opcode
  /-- The reserved bits `[55:35]` are not all 0. -/
  | reserved
  /-- A field that the command's format does not use is not 0 (30_encoding R91). -/
  | operand
  deriving DecidableEq, Repr

/-- `OPC[63:56]`. -/
def opcOf (c : CmdWord) : BitVec 8 := c.extractLsb' 56 8

/-- `RSV[55:35]`. -/
def rsvOf (c : CmdWord) : BitVec 21 := c.extractLsb' 35 21

/-- Bits `[34:32]`: `W`, `CPOL` and `CPHA` together. -/
def tagsOf (c : CmdWord) : BitVec 3 := c.extractLsb' 32 3

/-- `W[34]`. -/
def wOf (c : CmdWord) : Bool := c.getLsbD 34

/-- `CPOL[33]`. -/
def cpolOf (c : CmdWord) : Bool := c.getLsbD 33

/-- `CPHA[32]`. -/
def cphaOf (c : CmdWord) : Bool := c.getLsbD 32

/-- `ARG[31:0]`, taken as it stands (30_encoding R92). -/
def argOf (c : CmdWord) : BitVec 32 := c.extractLsb' 0 32

/-- `wtag` of 41_config: the `W` bit as a width. -/
def wtag : Bool → Width
  | false => .w8
  | true => .w16

/-- A width as a `W` bit (30_encoding R90). -/
def wbit : Width → Bool
  | .w8 => false
  | .w16 => true

/-- A word of format `NONE`: every bit below `OPC` must be 0 (30_encoding R91). -/
def decodeNone (i : Instr) (c : CmdWord) : Except Illegal Instr :=
  if tagsOf c = 0#3 ∧ argOf c = 0#32 then .ok i else .error .operand

/-- A word of format `LEN`: `W`, `CPOL` and `CPHA` must be 0 (30_encoding R91). -/
def decodeLen (mk : Nat → Instr) (c : CmdWord) : Except Illegal Instr :=
  if tagsOf c = 0#3 then .ok (mk (argOf c).toNat) else .error .operand

/-- CFGC, format `CFG` with `ARG` (30_encoding R91, R92). -/
def decodeCfgc (c : CmdWord) : Except Illegal Instr :=
  .ok (.cfgc (wtag (wOf c)) (cpolOf c) (cphaOf c) (argOf c).toNat)

/-- CFGP, format `CFG` whose `ARG` must be 0 (30_encoding R93, "rate omitted"). -/
def decodeCfgp (c : CmdWord) : Except Illegal Instr :=
  if argOf c = 0#32 then .ok (.cfgp (wtag (wOf c)) (cpolOf c) (cphaOf c)) else .error .operand

/-- The opcode map (30_encoding R93), by the value of `OPC`. -/
def decodeOpc (c : CmdWord) : Except Illegal Instr :=
  match (opcOf c).toNat with
  | 0x01 => decodeCfgc c
  | 0x02 => decodeCfgp c
  | 0x03 => decodeNone .ena c
  | 0x04 => decodeNone .dis c
  | 0x05 => decodeNone .to8 c
  | 0x06 => decodeNone .to16 c
  | 0x07 => decodeNone .rst c
  | 0x08 => decodeNone .rel c
  | 0x10 => decodeLen .xfer8 c
  | 0x11 => decodeLen .xfer16 c
  | 0x12 => decodeLen .wr8 c
  | 0x13 => decodeLen .wr16 c
  | _ => .error .opcode

/-- The decoder (30_encoding R95): exactly one command with its operands, or illegal. -/
def decode (c : CmdWord) : Except Illegal Instr :=
  if rsvOf c = 0#21 then decodeOpc c else .error .reserved

/-- The command word with these fields (30_encoding R90): `OPC`, `RSV`, `W`, `CPOL`, `CPHA`, `ARG`, from the top down. -/
def packCommand (opc : BitVec 8) (w cpol cpha : Bool) (arg : Nat) : CmdWord :=
  opc ++ 0#21 ++ BitVec.ofBool w ++ BitVec.ofBool cpol ++ BitVec.ofBool cpha ++ BitVec.ofNat 32 arg

/-- The `OPC` of each command (30_encoding R93). -/
def Instr.opc : Instr → BitVec 8
  | .cfgc _ _ _ _ => 0x01#8
  | .cfgp _ _ _ => 0x02#8
  | .ena => 0x03#8
  | .dis => 0x04#8
  | .to8 => 0x05#8
  | .to16 => 0x06#8
  | .rst => 0x07#8
  | .rel => 0x08#8
  | .xfer8 _ => 0x10#8
  | .xfer16 _ => 0x11#8
  | .wr8 _ => 0x12#8
  | .wr16 _ => 0x13#8

/-- The encoder: the command word of a well-formed command (30_encoding R90 to R93). -/
def encode (i : Instr) : CmdWord :=
  match i with
  | .cfgc w cpol cpha rate => packCommand i.opc (wbit w) cpol cpha rate
  | .cfgp w cpol cpha => packCommand i.opc (wbit w) cpol cpha 0
  | .ena => packCommand i.opc false false false 0
  | .dis => packCommand i.opc false false false 0
  | .to8 => packCommand i.opc false false false 0
  | .to16 => packCommand i.opc false false false 0
  | .rst => packCommand i.opc false false false 0
  | .rel => packCommand i.opc false false false 0
  | .xfer8 n => packCommand i.opc false false false n
  | .xfer16 n => packCommand i.opc false false false n
  | .wr8 n => packCommand i.opc false false false n
  | .wr16 n => packCommand i.opc false false false n

/-- The `match` column of the opcode map (30_encoding R93). -/
def Instr.matchWord : Instr → CmdWord
  | .cfgc _ _ _ _ => 0x0100000000000000#64
  | .cfgp _ _ _ => 0x0200000000000000#64
  | .ena => 0x0300000000000000#64
  | .dis => 0x0400000000000000#64
  | .to8 => 0x0500000000000000#64
  | .to16 => 0x0600000000000000#64
  | .rst => 0x0700000000000000#64
  | .rel => 0x0800000000000000#64
  | .xfer8 _ => 0x1000000000000000#64
  | .xfer16 _ => 0x1100000000000000#64
  | .wr8 _ => 0x1200000000000000#64
  | .wr16 _ => 0x1300000000000000#64

/-- The `mask` column of the opcode map (30_encoding R93). -/
def Instr.maskWord : Instr → CmdWord
  | .cfgc _ _ _ _ => 0xFFFFFFF800000000#64
  | .cfgp _ _ _ => 0xFFFFFFF8FFFFFFFF#64
  | .ena => 0xFFFFFFFFFFFFFFFF#64
  | .dis => 0xFFFFFFFFFFFFFFFF#64
  | .to8 => 0xFFFFFFFFFFFFFFFF#64
  | .to16 => 0xFFFFFFFFFFFFFFFF#64
  | .rst => 0xFFFFFFFFFFFFFFFF#64
  | .rel => 0xFFFFFFFFFFFFFFFF#64
  | .xfer8 _ => 0xFFFFFFFF00000000#64
  | .xfer16 _ => 0xFFFFFFFF00000000#64
  | .wr8 _ => 0xFFFFFFFF00000000#64
  | .wr16 _ => 0xFFFFFFFF00000000#64

/-- The instruction the decoder reads from an instruction of `nbits` bits with value `w`, the bits above `nbits` being 0.
A command is one word (30_encoding R90), so bit 0 of `w` is bit 0 of the command word. -/
def decodeTableWord (nbits w : Nat) : Option Instr :=
  match decode (BitVec.ofNat 64 (w % 2 ^ nbits)) with
  | .ok i => some i
  | .error _ => none

/-- `0` or `1` (30_encoding R102). -/
def bitText (b : Bool) : String := if b then "1" else "0"

/-- `8` or `16` (30_encoding R102). -/
def widthText : Width → String
  | .w8 => "8"
  | .w16 => "16"

/-- The textual form of a command, values in decimal (30_encoding R102). -/
def Instr.text : Instr → String
  | .cfgc w cpol cpha rate =>
      "CFGC w=" ++ widthText w ++ ", cpol=" ++ bitText cpol ++ ", cpha=" ++ bitText cpha ++ ", rate=" ++ toString rate
  | .cfgp w cpol cpha => "CFGP w=" ++ widthText w ++ ", cpol=" ++ bitText cpol ++ ", cpha=" ++ bitText cpha
  | .ena => "ENA"
  | .dis => "DIS"
  | .to8 => "TO8"
  | .to16 => "TO16"
  | .rst => "RST"
  | .rel => "REL"
  | .xfer8 n => "XFER8 n=" ++ toString n
  | .xfer16 n => "XFER16 n=" ++ toString n
  | .wr8 n => "WR8 n=" ++ toString n
  | .wr16 n => "WR16 n=" ++ toString n

/-- Mode numbering: mode `m` is `CPOL = m[1]`, `CPHA = m[0]` (30_encoding R100). -/
def modePolarityPhase (m : BitVec 2) : Bool × Bool := (m.getLsbD 1, m.getLsbD 0)

/-- The pseudo-commands `configure controller, mode, rate` and `configure peripheral, mode` (30_encoding R102): an 8-bit
handle, 16 bits being reached by TO16. -/
def pseudoConfigureController (m : BitVec 2) (rate : Nat) : Instr :=
  .cfgc .w8 (modePolarityPhase m).1 (modePolarityPhase m).2 rate

/-- See `pseudoConfigureController`. -/
def pseudoConfigurePeripheral (m : BitVec 2) : Instr :=
  .cfgp .w8 (modePolarityPhase m).1 (modePolarityPhase m).2

/-- The pseudo-command `transfer` on a handle of width `w` (30_encoding R102). -/
def pseudoTransfer (w : Width) (n : Nat) : Instr :=
  match w with
  | .w8 => .xfer8 n
  | .w16 => .xfer16 n

/-- The pseudo-command `write` on a handle of width `w` (30_encoding R102). -/
def pseudoWrite (w : Width) (n : Nat) : Instr :=
  match w with
  | .w8 => .wr8 n
  | .w16 => .wr16 n

end Sys2Proof
end

