-- ==== Sys2Proof/Fields.lean ====
section
/-! DEFINITION. The plain data SPIC and its ports are made of: the enumerations of 10_state R20, the control and status
fields of 10_state R30 and R36, the micro-states of 10_state R23, the entries of the access log (00_scope R9, R12) and
the future choices of the agents outside SPIC (00_scope R4). One-bit fields are Bool, true standing for 1 (10_state R32
lets a model keep them so). -/

namespace Sys2Proof

/-- `own`: whether a handle is live (10_state R20, R27). -/
inductive Own where
  | free
  | bound
  deriving DecidableEq, Repr, Inhabited

/-- `cfg`: the configuration lifecycle (10_state R20, R26). -/
inductive Lifecycle where
  | reset
  | disabledConfiguring
  | disabledConfigured
  | enabled
  deriving DecidableEq, Repr, Inhabited

/-- `role`: the Transfer Role of the handle (10_state R20). -/
inductive Role where
  | controller
  | peripheral
  deriving DecidableEq, Repr, Inhabited

/-- `resp`: the response to the last command (10_state R20, 30_encoding R98). -/
inductive Resp where
  | none
  | ok
  | overrun
  | modeFault
  | incomplete
  | rejected
  deriving DecidableEq, Repr, Inhabited

/-- `fault`: the sticky sequencer fault (10_state R20, 60_exceptions R226). -/
inductive SeqFault where
  | noFault
  | divisorUndefined
  deriving DecidableEq, Repr, Inhabited

/-- `seq`: the micro-states, SPIC's program counter (10_state R23). `vWrite` carries the target width of TO8 and TO16
(41_config R141). -/
inductive Seq where
  | idle
  | cClk | cRstA | cRstD | cDis | cCtrl | cWidth | cEn
  | pClk | pRstA | pRstD | pDis | pCtrl | pWidth | pEn
  | eWrite
  | dWrite
  | vWrite (target : Width)
  | sSave1 | sSave2 | sRstA | sRstD | sRest1 | sRest2
  | lRel
  | x8Setup | x8Main | x8Fill | x8FillPoll | x8FillSend | x8ReadPoll | x8ReadStore
  | x8Drain | x8DrainPoll | x8DrainStore | x8Final
  | x16Setup | x16Test | x16SendPoll | x16Send | x16RecvPoll | x16Store
  | w8Setup | w8InitPoll | w8Test | w8Cap | w8CapRead | w8Send | w8FinalPoll
  | w16Setup | w16Test | w16Poll | w16Send | w16FinalPoll
  deriving DecidableEq, Repr, Inhabited

/-- Group 1 of the control fields, `CTRL1` (10_state R30). -/
structure Ctrl1 where
  cpha : Bool
  cpol : Bool
  mstr : Bool
  br : BitVec 3
  en : Bool
  lsbfirst : Bool
  ssi : Bool
  ssm : Bool
  rxonly : Bool
  bidioe : Bool
  bidimode : Bool
  deriving DecidableEq, Repr, Inhabited

/-- Group 2 of the control fields, `CTRL2` (10_state R30). -/
structure Ctrl2 where
  ssoe : Bool
  dsize : Bool
  rxth : Bool
  deriving DecidableEq, Repr, Inhabited

/-- The status fields, read together as one snapshot (10_state R36). -/
structure Status where
  rxne : Bool
  txe : Bool
  bsy : Bool
  ovr : Bool
  modf : Bool
  txlvl : BitVec 2
  deriving DecidableEq, Repr, Inhabited

/-- One `F = v` of a `RegWrite` (00_scope R9): a control field and the value written to it. -/
inductive FieldVal where
  | cpha (v : Bool)
  | cpol (v : Bool)
  | mstr (v : Bool)
  | br (v : BitVec 3)
  | en (v : Bool)
  | lsbfirst (v : Bool)
  | ssi (v : Bool)
  | ssm (v : Bool)
  | rxonly (v : Bool)
  | bidioe (v : Bool)
  | bidimode (v : Bool)
  | ssoe (v : Bool)
  | dsize (v : Bool)
  | rxth (v : Bool)
  deriving DecidableEq, Repr

/-- One entry of the access log: a transaction on a port, with the value it carried (00_scope R9, R12). An 8-bit element
is shown zero-extended to 16 bits. -/
inductive Access where
  /-- `FIn()` returning `v`. -/
  | fIn (v : Word)
  /-- `ClkEnable()`. -/
  | clkEnable
  /-- `RstAssert()`. -/
  | rstAssert
  /-- `RstDeassert()`. -/
  | rstDeassert
  /-- `RegWrite(F1 = v1, ..., Fn = vn)`. -/
  | regWrite (fields : List FieldVal)
  /-- `RegRead(group 1)` returning `v`. -/
  | regRead1 (v : Ctrl1)
  /-- `RegRead(group 2)` returning `v`. -/
  | regRead2 (v : Ctrl2)
  /-- `RegRead(TXLVL)` returning `c`. -/
  | levelRead (c : BitVec 2)
  /-- `StatusSnapshot()` returning `s`. -/
  | snapshot (s : Status)
  /-- `DataWrite(W, v)`. -/
  | dataWrite (w : Width) (v : Half)
  /-- `DataRead(W)` returning `v`. -/
  | dataRead (w : Width) (v : Half)
  /-- `MemRead(i, W/8)` returning `v`. -/
  | memRead (w : Width) (i : Nat) (v : Half)
  /-- `MemWrite(i, W/8, v)`. -/
  | memWrite (w : Width) (i : Nat) (v : Half)
  deriving DecidableEq, Repr

/-- The future choices of the peripheral environment, as plain data (00_scope R4, 20_memory R74). `script` gives the next
snapshots, data values and level codes; where a list has run out the choice is a free value of Config, so
`script [] [] []` is the unconstrained environment. The other two are the reference environments ENV-LOOP0 and ENV-STALL
of 95_test_vectors section 0; `script` is its ENV-SCRIPT. -/
inductive Env where
  | script (snapshots : List Status) (data : List Half) (levels : List (BitVec 2))
  | loop0 (queue : List Half)
  | stall
  deriving DecidableEq, Repr

/-- The four registers of the packing of 30_encoding R103. -/
inductive RegName where
  | ctrl1
  | ctrl2
  | stat
  | data
  deriving DecidableEq, Repr

/-- What the host and the reset-and-clock collaborator may do to SPIC while it is in Idle (00_scope R4; 60_exceptions R236,
R239, R240; 70_reset_and_hazards R277). The block reset is no such move: it can come at any step (`State.resets`). -/
inductive OutsideMove where
  /-- The host presents a command word on the command port (30_encoding R96). -/
  | present (w : CmdWord)
  /-- The host stores an element of its own buffer between commands (00_scope R4, 20_memory R70). -/
  | store (w : Width) (i : Word) (v : Half)
  /-- The host writes control fields itself, while it owns the Register Interface (60_exceptions R236, R240). -/
  | fieldWrite (fields : List FieldVal)
  /-- The collaborator changes the input clock (70_reset_and_hazards R277). -/
  | setClock (f : Word)
  deriving DecidableEq, Repr

/-- `DRAIN_RETRIES`, a value in ℕ ∪ {∞} (00_scope R7, decision D17). -/
inductive Retries where
  | finite (k : Nat)
  | infinite
  deriving DecidableEq, Repr

/-- The registers SPIC's own reset leaves without a value (10_state R22, R44). -/
structure Unwritten where
  role : Role
  cpol : Bool
  cpha : Bool
  width : Width
  fin : Word
  freq : Word
  n : Word
  wpos : Word
  rpos : Word
  cap : BitVec 3
  tries : Nat
  save1 : Ctrl1
  save2 : Ctrl2
  deriving DecidableEq, Repr, Inhabited

/-- What the peripheral and the collaborator hold when SPIC is first reset: SPIC's reset does not touch them
(70_reset_and_hazards R260). -/
structure PowerOn where
  ctrl1 : Ctrl1
  ctrl2 : Ctrl2
  stat : Status
  clkEn : Bool
  rstLine : Bool
  fIn : Word
  deriving DecidableEq, Repr, Inhabited

end Sys2Proof
end

