-- ==== Sys2Proof/Config.lean ====
section
/-! DEFINITION. What is fixed for the machine (00_scope R7) and the FREE VALUES: constants without a body, which nothing
can evaluate, for everything the spec leaves open (93_implementation_defined U2, U6, U9, U10, U12, U13). A statement that
holds of them holds for every value. -/

namespace Sys2Proof

/-- The buffer port reaches element indexes below `2^32` (00_scope R7, `LEN_BITS`) of at most two bytes each, so byte
addresses below this bound. -/
def Config.bufferBytes : Nat := 2 ^ 33

/-- `DRAIN_RETRIES` at reset: the spec's default (00_scope R7, decision D17). -/
def Config.drainRetriesDefault : Retries := .finite 0

/-- FREE VALUE (log 1). What the tags and working registers hold after SPIC's own reset: 10_state R22 and R44 say that they
hold no value and that a model must not give them zero. No step reads one before it is written. -/
opaque Config.unwritten : Unwritten

/-- FREE VALUE (log 2). What the peripheral and the collaborator hold when SPIC is first reset (10_state R44, 70 R260). -/
opaque Config.powerOn : PowerOn

/-- FREE VALUE (log 5). The status fields the environment shows where no scripted choice is left, and after a reset pulse
(20_memory R74, 10_state R45). The argument is the counter `draws`. -/
opaque Config.freeStatus : Nat → Status

/-- FREE VALUE (log 5). The value `DataRead` returns where no scripted choice is left, and from an empty receive FIFO
(20_memory R74, 93 U13). -/
opaque Config.freeData : Nat → Half

/-- FREE VALUE (log 5). The transmit level where no scripted choice is left (20_memory R74). -/
opaque Config.freeLevel : Nat → BitVec 2

/-- FREE VALUE (log 7). MSTR and EN after a ModeFault response (93 U9, 70 R278). -/
opaque Config.freeBit : Nat → Bool

/-- FREE VALUE (log 4, log 10). The byte at address `a` of the caller's memory that nothing has recorded: what the caller
put there, or, where `k` failed transfers have left the address unspecified, any value (60_exceptions R231, 93 U2, U12). -/
opaque Config.callerByte (k a : Nat) : Byte

end Sys2Proof
end

