-- ==== Sys2Proof/Machine/State.lean ====
section
/-! DEFINITION. The state of SPIC and of the ports around it, as plain data (10_state), the reasons a step can stop, and the
state after SPIC's own reset (10_state R44, 70_reset_and_hazards R260). -/

namespace Sys2Proof.Machine

/-- The caller's memory behind the buffer port (20_memory R60). `cells` records the bytes that SPIC or the host has
written, addresses strictly rising; `regions` are the address ranges `[lo, hi)` that a failed transfer has left
unspecified (60_exceptions R231). -/
structure Memory where
  cells : List Host.Cell
  regions : List (Nat × Nat)
  deriving DecidableEq, Repr

/-- The one canonical form: addresses strictly rising and inside the buffer space. An unlisted address has no recorded
value, so no entry can equal it (log 4). -/
abbrev Memory.wf (m : Memory) : Prop :=
  m.cells.Pairwise (fun x y => x.1 < y.1) ∧ ∀ c ∈ m.cells, c.1 < Config.bufferBytes

/-- Everything the spec gives the machine. INVENTORY.md lists each field with its rule and its reset value. -/
structure State where
  -- SPIC's registers (10_state R20)
  own : Own
  cfg : Lifecycle
  role : Role
  cpol : Bool
  cpha : Bool
  width : Width
  fin : Word
  freq : Word
  n : Word
  wpos : Word
  rpos : Word
  cap : BitVec 3
  tries : Nat
  save1 : Ctrl1
  save2 : Ctrl2
  resp : Resp
  fault : SeqFault
  seq : Seq
  -- the Register Interface (10_state R30, R36)
  ctrl1 : Ctrl1
  ctrl2 : Ctrl2
  stat : Status
  -- the reset-and-clock collaborator (60_exceptions R239)
  clkEn : Bool
  rstLine : Bool
  fIn : Word
  -- the Transaction Buffer (20_memory R60)
  mem : Memory
  -- the open parameter DRAIN_RETRIES (00_scope R7)
  drainRetries : Retries
  -- the model's own: the environment's choices, the free values used so far, the exception U9, the outside moves to
  -- come, the block resets to come (each as the number of steps before it, log 8), and the access log of the run
  -- (00_scope R12)
  env : Env
  draws : Nat
  roleEnableOpen : Bool
  outside : List OutsideMove
  resets : List Nat
  log : List Access
  deriving DecidableEq, Repr

/-- Why the machine stops. -/
inductive Fault where
  /-- Raised by `step` in a state whose register `fault` says DivisorUndefined: the sequencer has no further step
  (10_state R24, 60_exceptions R226). Safe: the spec gives no step there. -/
  | divisorUndefined
  /-- Raised by a step that would access a buffer element at or beyond `n`, which does not exist (20_memory R60). Safe: no
  run reaches it. -/
  | bufferIndex
  /-- Raised by `W8_SEND` at `cap = 0`, where `cap - 1` is never performed (40_divisor R126 d). Safe: no run reaches it. -/
  | creditUnderflow
  deriving DecidableEq, Repr

/-- Why the model gives a situation no meaning. -/
inductive Refusal where
  /-- Raised by an arm of `exec` for a command that has no meaning yet; no arm does. Safe. -/
  | notModelled (mnemonic : String)
  /-- Raised by `exec` on a command presented while another one runs or after a sequencer fault, where the host has no
  move on the command port (30_encoding R96, 93 U4); `step` never asks for it. Safe. -/
  | commandWhileBusy
  /-- Raised by `step` when the host would write the Register Interface while a handle is bound: a contract violation that
  the spec tells a model to refuse (60_exceptions R236, 93 U4). Safe. -/
  | hostContract
  deriving DecidableEq, Repr

/-- What one step answers. -/
abbrev Result := Host.Outcome State Fault Refusal

/-- The machine right after SPIC's own reset (10_state R44): `own`, `cfg`, `resp`, `fault` and `seq` as the spec says; the
tags and working registers without a known value (log 1); the peripheral, the collaborator and the caller's memory as
they happened to be (log 2, log 4); the model's own fields at their start (log 5, 7, 8, 9). -/
def State.reset : State where
  own := .free
  cfg := .reset
  role := Config.unwritten.role
  cpol := Config.unwritten.cpol
  cpha := Config.unwritten.cpha
  width := Config.unwritten.width
  fin := Config.unwritten.fin
  freq := Config.unwritten.freq
  n := Config.unwritten.n
  wpos := Config.unwritten.wpos
  rpos := Config.unwritten.rpos
  cap := Config.unwritten.cap
  tries := Config.unwritten.tries
  save1 := Config.unwritten.save1
  save2 := Config.unwritten.save2
  resp := .none
  fault := .noFault
  seq := .idle
  ctrl1 := Config.powerOn.ctrl1
  ctrl2 := Config.powerOn.ctrl2
  stat := Config.powerOn.stat
  clkEn := Config.powerOn.clkEn
  rstLine := Config.powerOn.rstLine
  fIn := Config.powerOn.fIn
  mem := { cells := [], regions := [] }
  drainRetries := Config.drainRetriesDefault
  env := .script [] [] []
  draws := 0
  roleEnableOpen := false
  outside := []
  resets := []
  log := []

end Sys2Proof.Machine
end

