-- ==== Sys2Proof/Machine/Operands.lean ====
section
/-! DEFINITION. The operand forms of SPIC: the Clock Divisor Calculator (40_divisor), the field values that go with a width
and a role (41_config), what `F = v` does to a control register (00_scope R9), the addresses of a buffer element
(20_memory R60), and the packing of the fields into words (30_encoding R103). -/

namespace Sys2Proof.Machine

/-- The buckets of 40_divisor R122, for a ratio of at least 1. -/
def bucket (r : Nat) : BitVec 3 :=
  if r ≤ 2 then 0#3
  else if r ≤ 5 then 1#3
  else if r ≤ 11 then 2#3
  else if r ≤ 23 then 3#3
  else if r ≤ 47 then 4#3
  else if r ≤ 95 then 5#3
  else if r ≤ 191 then 6#3
  else 7#3

/-- `divisor(f_in, f_req)` (40_divisor R120 to R123): the bucket of the truncated ratio, none where the precondition is
violated. -/
def divisor (fin freq : Word) : Option (BitVec 3) :=
  if freq.toNat = 0 then none
  else if fin.toNat / freq.toNat = 0 then none
  else some (bucket (fin.toNat / freq.toNat))

/-- The division ratio a selector stands for, `2^(k+1)` (30_encoding R99). -/
def divisionRatio (k : BitVec 3) : Nat := 2 ^ (k.toNat + 1)

/-- Whether the effective bit rate `f_in / 2^(k+1)`, as an exact rational, exceeds `f_req` (40_divisor R125). -/
def rateExceeds (fin freq : Word) (k : BitVec 3) : Prop := freq.toNat * divisionRatio k < fin.toNat

/-- `ds`: the value of DSIZE for a width (41_config). -/
def ds : Width → Bool
  | .w8 => false
  | .w16 => true

/-- `th`: the value of RXTH for a width (41_config). -/
def th : Width → Bool
  | .w8 => true
  | .w16 => false

/-- Element size in bytes, `W/8` (00_scope R9). -/
def bytesOf : Width → Nat
  | .w8 => 1
  | .w16 => 2

/-- The byte address of element `i` (20_memory R60; the layout of the host's memory is log 3). -/
def elemAddr (w : Width) (i : Nat) : Nat := i * bytesOf w

/-- An element as it travels between the buffer and the data register: an 8-bit element in bits 7 to 0 (10_state R39). -/
def narrow (w : Width) (v : Half) : Half :=
  match w with
  | .w8 => (v.truncate 8).zeroExtend 16
  | .w16 => v

/-- The effect of one `F = v` on group 1 (00_scope R9, 10_state R30). -/
def applyCtrl1 (c : Ctrl1) : FieldVal → Ctrl1
  | .cpha v => { c with cpha := v }
  | .cpol v => { c with cpol := v }
  | .mstr v => { c with mstr := v }
  | .br v => { c with br := v }
  | .en v => { c with en := v }
  | .lsbfirst v => { c with lsbfirst := v }
  | .ssi v => { c with ssi := v }
  | .ssm v => { c with ssm := v }
  | .rxonly v => { c with rxonly := v }
  | .bidioe v => { c with bidioe := v }
  | .bidimode v => { c with bidimode := v }
  | .ssoe _ => c
  | .dsize _ => c
  | .rxth _ => c

/-- The effect of one `F = v` on group 2 (00_scope R9, 10_state R30). -/
def applyCtrl2 (c : Ctrl2) : FieldVal → Ctrl2
  | .ssoe v => { c with ssoe := v }
  | .dsize v => { c with dsize := v }
  | .rxth v => { c with rxth := v }
  | .cpha _ => c
  | .cpol _ => c
  | .mstr _ => c
  | .br _ => c
  | .en _ => c
  | .lsbfirst _ => c
  | .ssi _ => c
  | .ssm _ => c
  | .rxonly _ => c
  | .bidioe _ => c
  | .bidimode _ => c

/-- Whether `F` is the role flag or the enable bit, the two fields of 93 U9. -/
def namesRoleEnable : FieldVal → Bool
  | .mstr _ => true
  | .en _ => true
  | _ => false

/-- Every control field of group 1 after a reset pulse (10_state R45). -/
def ctrl1AfterPulse : Ctrl1 where
  cpha := false
  cpol := false
  mstr := false
  br := 0#3
  en := false
  lsbfirst := false
  ssi := false
  ssm := false
  rxonly := false
  bidioe := false
  bidimode := false

/-- Every control field of group 2 after a reset pulse (10_state R45). -/
def ctrl2AfterPulse : Ctrl2 where
  ssoe := false
  dsize := false
  rxth := false

/-- "Every field of group 1 = its value in save1, except EN = 0" (41_config R144). -/
def restoreGroup1 (c : Ctrl1) : List FieldVal :=
  [.cpha c.cpha, .cpol c.cpol, .mstr c.mstr, .br c.br, .en false, .lsbfirst c.lsbfirst, .ssi c.ssi, .ssm c.ssm,
   .rxonly c.rxonly, .bidioe c.bidioe, .bidimode c.bidimode]

/-- "Every field of group 2 = its value in save2" (41_config R144). -/
def restoreGroup2 (c : Ctrl2) : List FieldVal := [.ssoe c.ssoe, .dsize c.dsize, .rxth c.rxth]

/-- The byte offset of each register from the platform's base address (30_encoding R103, decision D4). -/
def registerOffset : RegName → Nat
  | .ctrl1 => 0x00
  | .ctrl2 => 0x04
  | .stat => 0x08
  | .data => 0x0C

/-- The register that holds a control field (30_encoding R103): a `RegWrite` is a read-modify-write of one register. -/
def fieldRegister : FieldVal → RegName
  | .cpha _ => .ctrl1
  | .cpol _ => .ctrl1
  | .mstr _ => .ctrl1
  | .br _ => .ctrl1
  | .en _ => .ctrl1
  | .lsbfirst _ => .ctrl1
  | .ssi _ => .ctrl1
  | .ssm _ => .ctrl1
  | .rxonly _ => .ctrl1
  | .bidioe _ => .ctrl1
  | .bidimode _ => .ctrl1
  | .ssoe _ => .ctrl2
  | .dsize _ => .ctrl2
  | .rxth _ => .ctrl2

/-- The word `DATA` (30_encoding R103): `DR` in bits 15 to 0, of which an 8-bit access uses bits 7 to 0. -/
def packData (w : Width) (v : Half) : Half := narrow w v

/-- The word `CTRL1` (30_encoding R103): reserved bits read as 0. -/
def packCtrl1 (c : Ctrl1) : Half :=
  BitVec.ofBool c.bidimode ++ BitVec.ofBool c.bidioe ++ 0#3 ++ BitVec.ofBool c.rxonly ++ BitVec.ofBool c.ssm ++
    BitVec.ofBool c.ssi ++ BitVec.ofBool c.lsbfirst ++ BitVec.ofBool c.en ++ c.br ++ BitVec.ofBool c.mstr ++
    BitVec.ofBool c.cpol ++ BitVec.ofBool c.cpha

/-- The fields of a word `CTRL1` (30_encoding R103). -/
def unpackCtrl1 (v : Half) : Ctrl1 where
  cpha := v.getLsbD 0
  cpol := v.getLsbD 1
  mstr := v.getLsbD 2
  br := v.extractLsb' 3 3
  en := v.getLsbD 6
  lsbfirst := v.getLsbD 7
  ssi := v.getLsbD 8
  ssm := v.getLsbD 9
  rxonly := v.getLsbD 10
  bidioe := v.getLsbD 14
  bidimode := v.getLsbD 15

/-- The word `CTRL2` (30_encoding R103). -/
def packCtrl2 (c : Ctrl2) : Half :=
  0#3 ++ BitVec.ofBool c.rxth ++ BitVec.ofBool c.dsize ++ 0#8 ++ BitVec.ofBool c.ssoe ++ 0#2

/-- The fields of a word `CTRL2` (30_encoding R103). -/
def unpackCtrl2 (v : Half) : Ctrl2 where
  ssoe := v.getLsbD 2
  dsize := v.getLsbD 11
  rxth := v.getLsbD 12

/-- The word `STAT` (30_encoding R103). -/
def packStatus (s : Status) : Half :=
  0#3 ++ s.txlvl ++ 0#3 ++ BitVec.ofBool s.bsy ++ BitVec.ofBool s.ovr ++ BitVec.ofBool s.modf ++ 0#3 ++
    BitVec.ofBool s.txe ++ BitVec.ofBool s.rxne

/-- The fields of a word `STAT` (30_encoding R103). -/
def unpackStatus (v : Half) : Status where
  rxne := v.getLsbD 0
  txe := v.getLsbD 1
  bsy := v.getLsbD 7
  ovr := v.getLsbD 6
  modf := v.getLsbD 5
  txlvl := v.extractLsb' 11 2

end Sys2Proof.Machine
end

