-- ==== Sys2Proof/Machine/Environment.lean ====
section
/-! DEFINITION. The peripheral environment (00_scope R4, 20_memory R74): what a read of the register port returns and what
the environment becomes. A read takes the next scripted choice, or a free value where none is left; the two reference
environments follow 95_test_vectors section 0. The argument `d` counts the free values used so far. -/

namespace Sys2Proof.Machine

/-- The status of ENV-LOOP0 with queue `q`: always send-ready, level empty, RXNE exactly when `q` is not empty. -/
def loopStatus (q : List Half) : Status where
  rxne := !q.isEmpty
  txe := true
  bsy := false
  ovr := false
  modf := false
  txlvl := 0#2

/-- What `StatusSnapshot()` returns. -/
def envStatus (e : Env) (d : Nat) : Status :=
  match e with
  | .script (s :: _) _ _ => s
  | .script [] _ _ => Config.freeStatus d
  | .loop0 q => loopStatus q
  | .stall => loopStatus []

/-- The environment after a `StatusSnapshot()`: a status read takes nothing from the FIFOs (20_memory R67). -/
def envAfterStatus : Env → Env
  | .script (_ :: ss) ds ls => .script ss ds ls
  | .script [] ds ls => .script [] ds ls
  | .loop0 q => .loop0 q
  | .stall => .stall

/-- How many free values a `StatusSnapshot()` uses. -/
def envStatusDraws : Env → Nat
  | .script (_ :: _) _ _ => 0
  | .script [] _ _ => 1
  | .loop0 _ => 0
  | .stall => 0

/-- What `RegRead(TXLVL)` returns. -/
def envLevel (e : Env) (d : Nat) : BitVec 2 :=
  match e with
  | .script _ _ (l :: _) => l
  | .script _ _ [] => Config.freeLevel d
  | .loop0 _ => 0#2
  | .stall => 0#2

/-- The environment after a `RegRead(TXLVL)`. -/
def envAfterLevel : Env → Env
  | .script ss ds (_ :: ls) => .script ss ds ls
  | .script ss ds [] => .script ss ds []
  | .loop0 q => .loop0 q
  | .stall => .stall

/-- How many free values a `RegRead(TXLVL)` uses. -/
def envLevelDraws : Env → Nat
  | .script _ _ (_ :: _) => 0
  | .script _ _ [] => 1
  | .loop0 _ => 0
  | .stall => 0

/-- What the data register holds for a `DataRead`: the oldest waiting element; from an empty receive FIFO anything
(93 U13). -/
def envData (e : Env) (d : Nat) : Half :=
  match e with
  | .script _ (v :: _) _ => v
  | .script _ [] _ => Config.freeData d
  | .loop0 (v :: _) => v
  | .loop0 [] => Config.freeData d
  | .stall => Config.freeData d

/-- The environment after a `DataRead`: the element is gone (20_memory R67). -/
def envAfterData : Env → Env
  | .script ss (_ :: ds) ls => .script ss ds ls
  | .script ss [] ls => .script ss [] ls
  | .loop0 (_ :: q) => .loop0 q
  | .loop0 [] => .loop0 []
  | .stall => .stall

/-- How many free values a `DataRead` uses. -/
def envDataDraws : Env → Nat
  | .script _ (_ :: _) _ => 0
  | .script _ [] _ => 1
  | .loop0 (_ :: _) => 0
  | .loop0 [] => 1
  | .stall => 1

/-- The environment after `DataWrite(W, v)`: ENV-LOOP0 queues the element when BIDIMODE is 0 and discards it when it is 1,
ENV-STALL discards it, a script has already chosen what will be received. -/
def envAfterWrite (bidimode : Bool) (v : Half) : Env → Env
  | .script ss ds ls => .script ss ds ls
  | .loop0 q => .loop0 (if bidimode then q else q ++ [v])
  | .stall => .stall

/-- The environment after a reset pulse: ENV-LOOP0 empties its queue; otherwise unconstrained (10_state R45). -/
def envAfterPulse : Env → Env
  | .script ss ds ls => .script ss ds ls
  | .loop0 _ => .loop0 []
  | .stall => .stall

end Sys2Proof.Machine
end

