-- ==== Sys2Proof/Machine/Flags.lean ====
section
/-! DEFINITION. The Fault Detector and the readiness bits (42_fault_detector R160 to R164), the transmit-capacity estimate
(R165), the drain loop's bound (43_transfer R174) and the response code the host reads (30_encoding R98). -/

namespace Sys2Proof.Machine

/-- Which readiness bit a poll consults (42_fault_detector R160). -/
inductive PollKind where
  | send
  | recv
  deriving DecidableEq, Repr

/-- The four results of the Fault Detector (42_fault_detector R160). -/
inductive PollResult where
  | ready
  | wouldBlock
  | overrun
  | modeFault
  deriving DecidableEq, Repr

/-- `ready(kind, s)`: transmit-empty-and-not-busy (R161) or receive-not-empty (R162). -/
def readyBit : PollKind → Status → Bool
  | .send, s => s.txe && !s.bsy
  | .recv, s => s.rxne

/-- `Poll(kind, s)` (42_fault_detector R160): Overrun before Mode-Fault (R163, decision D16) before readiness. -/
def poll (kind : PollKind) (s : Status) : PollResult :=
  if s.ovr then .overrun
  else if s.modf then .modeFault
  else if readyBit kind s then .ready
  else .wouldBlock

/-- `txcap(level)` (42_fault_detector R165): the list of four classes, "full or fuller" being every other code. -/
def txcap (level : BitVec 2) : BitVec 3 :=
  if level = 0#2 then 4#3
  else if level = 1#2 then 3#3
  else if level = 2#2 then 2#3
  else 0#3

/-- `tries < DRAIN_RETRIES` (43_transfer R174). -/
def retriesLeft (tries : Nat) : Retries → Bool
  | .finite k => decide (tries < k)
  | .infinite => true

/-- The 3-bit code of a response (30_encoding R98). -/
def respBits : Resp → BitVec 3
  | .none => 0#3
  | .ok => 1#3
  | .overrun => 2#3
  | .modeFault => 3#3
  | .incomplete => 4#3
  | .rejected => 5#3

/-- The code the host reads: 7 when the sequencer has faulted (30_encoding R98, 60_exceptions R226). -/
def respCode (s : State) : BitVec 3 :=
  match s.fault with
  | .noFault => respBits s.resp
  | .divisorUndefined => 7#3

end Sys2Proof.Machine
end

