-- ==== Sys2Proof/Machine/Ops.lean ====
section
/-! DEFINITION. The named operations every command is written in: the caller's memory, the port transactions of
00_scope R9, and the ways a command ends (finish, reject, error response, sequencer fault, block reset). -/

namespace Sys2Proof.Machine

/-! ## The caller's memory (20_memory R60) -/

/-- The recorded byte at an address, none where nothing has recorded one. -/
def findCell (a : Nat) : List Host.Cell → Option Byte
  | [] => none
  | c :: rest => if c.1 = a then some c.2 else findCell a rest

/-- Records byte `b` at address `a`, keeping the addresses strictly rising. -/
def putCell (a : Nat) (b : Byte) : List Host.Cell → List Host.Cell
  | [] => [(a, b)]
  | c :: rest =>
    if a < c.1 then (a, b) :: c :: rest
    else if a = c.1 then (a, b) :: rest
    else c :: putCell a b rest

/-- How many failed transfers have left address `a` unspecified. -/
def countRegions (a : Nat) : List (Nat × Nat) → Nat
  | [] => 0
  | r :: rest => (if r.1 ≤ a ∧ a < r.2 then 1 else 0) + countRegions a rest

/-- What an address with no recorded byte reads as: a free value (log 4, log 10). -/
def unlistedByte (m : Memory) (a : Nat) : Byte := Config.callerByte (countRegions a m.regions) a

/-- One byte of the caller's memory. -/
def readByte (m : Memory) (a : Nat) : Byte := (findCell a m.cells).getD (unlistedByte m a)

/-- One byte written. -/
def writeByte (m : Memory) (a : Nat) (b : Byte) : Memory := { m with cells := putCell a b m.cells }

/-- Element `i` of `w` bits, an 8-bit one zero-extended; a 16-bit one has its low byte first (log 3). -/
def readElem (w : Width) (m : Memory) (i : Nat) : Half :=
  match w with
  | .w8 => (readByte m (elemAddr .w8 i)).zeroExtend 16
  | .w16 => readByte m (elemAddr .w16 i + 1) ++ readByte m (elemAddr .w16 i)

/-- Element `i` replaced by `v` (20_memory R60). -/
def writeElem (w : Width) (m : Memory) (i : Nat) (v : Half) : Memory :=
  match w with
  | .w8 => writeByte m (elemAddr .w8 i) (v.truncate 8)
  | .w16 => writeByte (writeByte m (elemAddr .w16 i) (v.extractLsb' 0 8)) (elemAddr .w16 i + 1) (v.extractLsb' 8 8)

/-- The bytes of `[lo, hi)` become unspecified: any value (60_exceptions R231, 93 U2, U12). -/
def unspecify (lo hi : Nat) (m : Memory) : Memory where
  cells := m.cells.filter (fun c => !(decide (lo ≤ c.1) && decide (c.1 < hi)))
  regions := (lo, hi) :: m.regions

/-! ## The register port (00_scope R9) -/

/-- Group 1 after `RegWrite(fields)`. Where MSTR and EN are unspecified (93 U9), a write of either leaves them so. -/
def ctrl1AfterWrite (fields : List FieldVal) (s : State) : Ctrl1 :=
  if s.roleEnableOpen && fields.any namesRoleEnable then
    { fields.foldl applyCtrl1 s.ctrl1 with mstr := Config.freeBit s.draws, en := Config.freeBit (s.draws + 1) }
  else fields.foldl applyCtrl1 s.ctrl1

/-- How many free values a `RegWrite` uses. -/
def writeDraws (fields : List FieldVal) (s : State) : Nat :=
  if s.roleEnableOpen && fields.any namesRoleEnable then 2 else 0

/-- The control fields after a write of the listed ones, every other field unchanged (00_scope R9). -/
def setFields (fields : List FieldVal) (s : State) : State :=
  { s with
    ctrl1 := ctrl1AfterWrite fields s
    ctrl2 := fields.foldl applyCtrl2 s.ctrl2
    draws := s.draws + writeDraws fields s }

/-- The host's own write of control fields (60_exceptions R236, R240). The spec says that a peripheral whose clock is gated
may ignore register writes (70_reset_and_hazards R263) and nothing of one whose reset line is still asserted. DESIGN CHOICE
(log 18): with the clock gate on and the line released the write takes effect; otherwise a free value says whether it does
or is ignored. -/
def hostWrite (fields : List FieldVal) (s : State) : State :=
  if s.clkEn && !s.rstLine then setFields fields s
  else if Config.freeBit s.draws then setFields fields { s with draws := s.draws + 1 }
  else { s with draws := s.draws + 1 }

/-- One entry of the access log (00_scope R12). -/
def note (a : Access) (s : State) : State := { s with log := s.log ++ [a] }

/-- `RegWrite(F1 = v1, ..., Fn = vn)`: one transaction (20_memory R66). -/
def regWrite (fields : List FieldVal) (s : State) : State := note (.regWrite fields) (setFields fields s)

/-- `StatusSnapshot()`: the values the environment shows at this instant, left in `stat`. -/
def snapshot (s : State) : State :=
  { s with
    stat := envStatus s.env s.draws
    env := envAfterStatus s.env
    draws := s.draws + envStatusDraws s.env
    log := s.log ++ [.snapshot (envStatus s.env s.draws)] }

/-- `RegRead(TXLVL)`: not a status poll (42_fault_detector R165). The level is left in `stat`. -/
def readLevel (s : State) : State :=
  { s with
    stat := { s.stat with txlvl := envLevel s.env s.draws }
    env := envAfterLevel s.env
    draws := s.draws + envLevelDraws s.env
    log := s.log ++ [.levelRead (envLevel s.env s.draws)] }

/-- `DataWrite(W, v)`: one element queued for transmission (10_state R39). -/
def dataWrite (w : Width) (v : Half) (s : State) : State :=
  { s with
    env := envAfterWrite s.ctrl1.bidimode v s.env
    log := s.log ++ [.dataWrite w v] }

/-- The value `DataRead(W)` returns. -/
def dataValue (w : Width) (s : State) : Half := packData w (envData s.env s.draws)

/-- `DataRead(W)`: the oldest element is taken out of the receive FIFO (10_state R39). -/
def dataRead (w : Width) (s : State) : State :=
  { s with
    env := envAfterData s.env
    draws := s.draws + envDataDraws s.env
    log := s.log ++ [.dataRead w (dataValue w s)] }

/-- The word a read of one of the four registers returns (30_encoding R103): `RegRead` of a group is one read of its register,
`StatusSnapshot()` is one read of `STAT`, and `DataRead` at the handle's width is one read of `DATA`. -/
def registerWord (r : RegName) (s : State) : Half :=
  match r with
  | .ctrl1 => packCtrl1 s.ctrl1
  | .ctrl2 => packCtrl2 s.ctrl2
  | .stat => packStatus (envStatus s.env s.draws)
  | .data => packData s.width (envData s.env s.draws)

/-- `MemRead(i, W/8)` as a transaction; its value is `readElem w s.mem i`. -/
def memRead (w : Width) (i : Nat) (s : State) : State := note (.memRead w i (readElem w s.mem i)) s

/-- `MemWrite(i, W/8, v)`. -/
def memWrite (w : Width) (i : Nat) (v : Half) (s : State) : State :=
  { s with mem := writeElem w s.mem i v, log := s.log ++ [.memWrite w i v] }

/-! ## The reset-and-clock port (60_exceptions R239) -/

/-- `ClkEnable()`. -/
def clkEnable (s : State) : State := { s with clkEn := true, log := s.log ++ [.clkEnable] }

/-- `RstAssert()`: the line is driven; the pulse takes effect when it is released (log 11). -/
def rstAssert (s : State) : State := { s with rstLine := true, log := s.log ++ [.rstAssert] }

/-- `RstDeassert()`: the end of the reset pulse. Every control field takes its reset value (10_state R45); the status fields
are unspecified until they are next observed (93 U10); MSTR and EN are known again (93 U9). -/
def rstDeassert (s : State) : State :=
  { s with
    rstLine := false
    ctrl1 := ctrl1AfterPulse
    ctrl2 := ctrl2AfterPulse
    stat := Config.freeStatus s.draws
    draws := s.draws + 1
    env := envAfterPulse s.env
    roleEnableOpen := false
    log := s.log ++ [.rstDeassert] }

/-- `FIn()`, sampled into the register `fin` (41_config R130). -/
def sampleFIn (s : State) : State := { s with fin := s.fIn, log := s.log ++ [.fIn s.fIn] }

/-! ## How a command starts and ends -/

/-- `finish(r)` (00_scope R9). -/
def finish (r : Resp) (s : State) : State := { s with resp := r, seq := .idle }

/-- `reject` (00_scope R9, 60_exceptions R224): nothing else changes and no transaction is made. -/
def reject (s : State) : State := { s with resp := .rejected, seq := .idle }

/-- `raise Fault(DivisorUndefined)` (60_exceptions R226): nothing else changes. -/
def raiseFault (s : State) : State := { s with fault := .divisorUndefined }

/-- MSTR and EN become unspecified (93 U9, 70_reset_and_hazards R278). -/
def openRoleEnable (s : State) : State :=
  { s with
    roleEnableOpen := true
    ctrl1 := { s.ctrl1 with mstr := Config.freeBit s.draws, en := Config.freeBit (s.draws + 1) }
    draws := s.draws + 2 }

/-- An error response (60_exceptions R229): SPIC's one way of taking an exception. The detecting step is the command's last
one, `resp` takes the code, nothing is saved and no flag is cleared. After ModeFault the role flag and the enable bit are
unspecified (93 U9). -/
def respondError (r : Resp) (s : State) : State :=
  match r with
  | .modeFault => finish .modeFault (openRoleEnable s)
  | _ => finish r s

/-- An error response of a full-duplex transfer: the elements from `rpos` on are unspecified (60_exceptions R231, 93 U2). -/
def failTransfer (w : Width) (r : Resp) (s : State) : State :=
  respondError r { s with mem := unspecify (elemAddr w s.rpos.toNat) (elemAddr w s.n.toNat) s.mem }

/-- The `Overrun` of `X8_FINAL`: the whole buffer is unspecified (60_exceptions R231, 93 U12). -/
def failLate (w : Width) (s : State) : State :=
  respondError .overrun { s with mem := unspecify 0 (elemAddr w s.n.toNat) s.mem }

/-- Command acceptance (30_encoding R96): in Idle without fault a legal command latches its operands with `resp <- None`,
any other is rejected. A command presented at any other time is given no meaning (93 U4). -/
def accept (lawful : Bool) (latch : State → State) (s : State) : Result :=
  if s.seq = .idle ∧ s.fault = .noFault then
    if lawful then .next (latch { s with resp := .none }) else .next (reject s)
  else .refused .commandWhileBusy

/-- `own = Bound` and `cfg` DisabledConfigured or Enabled (30_encoding R97). -/
def boundReady (s : State) : Bool :=
  decide (s.own = .bound) && (decide (s.cfg = .disabledConfigured) || decide (s.cfg = .enabled))

/-- SPIC's own reset (70_reset_and_hazards R260): the registers as in State.reset; the peripheral, the collaborator, the
buffer, the environment and the parameter are not touched. DESIGN CHOICE (log 11): this is so between RstAssert and
RstDeassert as well, which the spec always has as a pair (60_exceptions R239) and says nothing of; the reset line then stays
asserted in Idle and the control fields keep their values, until the next construction makes a full pulse. -/
def blockReset (s : State) : State :=
  { s with
    own := State.reset.own
    cfg := State.reset.cfg
    role := State.reset.role
    cpol := State.reset.cpol
    cpha := State.reset.cpha
    width := State.reset.width
    fin := State.reset.fin
    freq := State.reset.freq
    n := State.reset.n
    wpos := State.reset.wpos
    rpos := State.reset.rpos
    cap := State.reset.cap
    tries := State.reset.tries
    save1 := State.reset.save1
    save2 := State.reset.save2
    resp := State.reset.resp
    fault := State.reset.fault
    seq := State.reset.seq }

/-! ## When the block reset comes (70_reset_and_hazards R260, R276) -/

/-- The block resets still to come when one step has been made that is none of them. -/
def later : List Nat → List Nat
  | [] => []
  | k :: rest => (k - 1) :: rest

/-- The block reset is the next thing to happen. The spec sets no time for it; DESIGN CHOICE (log 8): `resets` says how many
steps are made before the next one, any number, so that it can come in the middle of a command. A faulted sequencer makes no
step (60_exceptions R226), so there the next block reset comes at once. -/
def resetDue (s : State) : Bool :=
  match s.resets with
  | [] => false
  | k :: _ => decide (k = 0) || decide (s.fault ≠ .noFault)

/-- One step is counted towards the next block reset. -/
def tick (s : State) : State := { s with resets := later s.resets }

/-- The block reset that was due is taken. -/
def takeReset (s : State) : State := blockReset { s with resets := s.resets.tail }

/-! ## Polls and elements, shared by the transfer commands -/

/-- One status poll (42_fault_detector R160, R167): a snapshot in this step, then a branch on the Fault Detector's four
results. -/
def pollThen (kind : PollKind) (onReady onBlock : State → State) (onFault : Resp → State → State) (s : State) : State :=
  match poll kind (snapshot s).stat with
  | .ready => onReady (snapshot s)
  | .wouldBlock => onBlock (snapshot s)
  | .overrun => onFault .overrun (snapshot s)
  | .modeFault => onFault .modeFault (snapshot s)

/-- The next micro-state is `q`. -/
def goto (q : Seq) (s : State) : State := { s with seq := q }

/-- `DataWrite(W, MemRead(x[wpos], W/8)); x[wpos] <- x[wpos] + 1; seq <- q`, for `wpos < n` (20_memory R60). -/
def sendElem (w : Width) (q : Seq) (s : State) : Result :=
  if s.wpos < s.n then
    .next { dataWrite w (readElem w s.mem s.wpos.toNat) (memRead w s.wpos.toNat s) with wpos := s.wpos + 1#32, seq := q }
  else .fault .bufferIndex

/-- `MemWrite(x[rpos], W/8, DataRead(W)); x[rpos] <- x[rpos] + 1; seq <- q`, for `rpos < n` (20_memory R60). -/
def storeElem (w : Width) (q : Seq) (s : State) : Result :=
  if s.rpos < s.n then
    .next { memWrite w s.rpos.toNat (dataValue w s) (dataRead w s) with rpos := s.rpos + 1#32, seq := q }
  else .fault .bufferIndex

/-- The final non-fatal poll of WR8 and WR16 (44_write R204): `Ok` on any result but Would-Block. -/
def finalPoll (self : Seq) (s : State) : State :=
  pollThen .send (finish .ok) (goto self) (fun _ => finish .ok) s

end Sys2Proof.Machine
end

