-- ==== Sys2Proof/Machine/Construct.lean ====
section
/-! DEFINITION. CFGC and CFGP, the construction commands (41_config R130 to R138): what acceptance does, and each
micro-step. -/

namespace Sys2Proof.Machine

/-! ## Steps the two commands share -/

/-- `C_CLK` and `P_CLK` (41_config R131). -/
def clockStep (q : Seq) (s : State) : State := goto q (clkEnable s)

/-- `C_RSTA`, `P_RSTA` and `S_RSTA` (41_config R131, R144). -/
def assertStep (q : Seq) (s : State) : State := goto q (rstAssert s)

/-- `C_RSTD` and `P_RSTD` (41_config R131): the pulse is complete and `cfg <- Reset`. -/
def deassertStep (q : Seq) (s : State) : State := { rstDeassert s with cfg := .reset, seq := q }

/-- `C_DIS` and `P_DIS` (41_config R132): EN is written 0 before any other control field. -/
def disableStep (q : Seq) (s : State) : State :=
  { regWrite [.en false] s with cfg := .disabledConfiguring, seq := q }

/-- `C_WIDTH` and `P_WIDTH` (41_config R133): data size and receive threshold together; SSOE is not written. -/
def widthStep (q : Seq) (s : State) : State :=
  { regWrite [.dsize (ds s.width), .rxth (th s.width)] s with cfg := .disabledConfigured, seq := q }

/-- `C_EN` and `P_EN` (41_config R134). -/
def enableStep (s : State) : State := finish .ok { regWrite [.en true] s with cfg := .enabled }

/-! ## CFGC -/

/-- CFGC at acceptance (41_config R130): the handle is bound, its tags and `f_req` are latched, `f_in` is sampled. -/
def execCfgc (w : Width) (cpol cpha : Bool) (rate : Nat) (s : State) : Result :=
  accept (fitsArg rate && decide (s.own = .free))
    (fun s => { sampleFIn s with
      own := .bound, role := .controller, cpol := cpol, cpha := cpha, width := w, freq := BitVec.ofNat 32 rate, seq := .cClk })
    s

/-- `C_CLK`. -/
def cfgcClk (s : State) : Result := .next (clockStep .cRstA s)

/-- `C_RSTA`. -/
def cfgcRstA (s : State) : Result := .next (assertStep .cRstD s)

/-- `C_RSTD`. -/
def cfgcRstD (s : State) : Result := .next (deassertStep .cDis s)

/-- `C_DIS`. -/
def cfgcDis (s : State) : Result := .next (disableStep .cCtrl s)

/-- The nine fields of `C_CTRL`, written in one transaction (41_config R132). -/
def controllerFields (s : State) (k : BitVec 3) : List FieldVal :=
  [.cpha s.cpha, .cpol s.cpol, .mstr true, .br k, .lsbfirst false, .ssm true, .ssi true, .rxonly false, .bidimode false]

/-- `C_CTRL` (41_config R132): the divisor is computed, or the sequencer fault is raised with nothing written and `seq`
unchanged. -/
def cfgcCtrl (s : State) : Result :=
  match divisor s.fin s.freq with
  | none => .next (raiseFault s)
  | some k => .next (goto .cWidth (regWrite (controllerFields s k) s))

/-- `C_WIDTH`. -/
def cfgcWidth (s : State) : Result := .next (widthStep .cEn s)

/-- `C_EN`. -/
def cfgcEn (s : State) : Result := .next (enableStep s)

/-! ## CFGP -/

/-- CFGP at acceptance (41_config R136): `fin` and `freq` are not written and `FIn()` is not called. -/
def execCfgp (w : Width) (cpol cpha : Bool) (s : State) : Result :=
  accept (decide (s.own = .free))
    (fun s => { s with own := .bound, role := .peripheral, cpol := cpol, cpha := cpha, width := w, seq := .pClk })
    s

/-- `P_CLK`. -/
def cfgpClk (s : State) : Result := .next (clockStep .pRstA s)

/-- `P_RSTA`. -/
def cfgpRstA (s : State) : Result := .next (assertStep .pRstD s)

/-- `P_RSTD`. -/
def cfgpRstD (s : State) : Result := .next (deassertStep .pDis s)

/-- `P_DIS`. -/
def cfgpDis (s : State) : Result := .next (disableStep .pCtrl s)

/-- The seven fields of `P_CTRL` (41_config R137): BR and SSI are not written. -/
def peripheralFields (s : State) : List FieldVal :=
  [.cpha s.cpha, .cpol s.cpol, .mstr false, .lsbfirst false, .ssm false, .rxonly false, .bidimode false]

/-- `P_CTRL` (41_config R137). -/
def cfgpCtrl (s : State) : Result := .next (goto .pWidth (regWrite (peripheralFields s) s))

/-- `P_WIDTH`. -/
def cfgpWidth (s : State) : Result := .next (widthStep .pEn s)

/-- `P_EN`. -/
def cfgpEn (s : State) : Result := .next (enableStep s)

end Sys2Proof.Machine
end

