-- ==== Sys2Proof/Machine/Control.lean ====
section
/-! DEFINITION. ENA, DIS, TO8, TO16, RST and REL (41_config R139 to R146): what acceptance does, and each micro-step. -/

namespace Sys2Proof.Machine

/-- ENA at acceptance (41_config R139). -/
def execEna (s : State) : Result := accept (boundReady s) (goto .eWrite) s

/-- `E_WRITE` (41_config R139). -/
def enaWrite (s : State) : Result := .next (finish .ok { regWrite [.en true] s with cfg := .enabled })

/-- DIS at acceptance (41_config R140). -/
def execDis (s : State) : Result := accept (boundReady s) (goto .dWrite) s

/-- `D_WRITE` (41_config R140): no status is read and nothing is waited for. -/
def disWrite (s : State) : Result := .next (finish .ok { regWrite [.en false] s with cfg := .disabledConfigured })

/-- TO8 at acceptance (41_config R141), whatever the current width. -/
def execTo8 (s : State) : Result := accept (boundReady s) (goto (.vWrite .w8)) s

/-- TO16 at acceptance (41_config R142), whatever the current width. -/
def execTo16 (s : State) : Result := accept (boundReady s) (goto (.vWrite .w16)) s

/-- `V_WRITE` with target `t` (41_config R141): the three fields are written in one transaction. -/
def convertWrite (t : Width) (s : State) : Result :=
  .next (finish .ok { regWrite [.ssoe false, .rxth (th t), .dsize (ds t)] s with width := t })

/-- RST at acceptance (41_config R144). -/
def execRst (s : State) : Result := accept (boundReady s) (goto .sSave1) s

/-- `S_SAVE1` (41_config R144). -/
def rstSave1 (s : State) : Result := .next (goto .sSave2 { note (.regRead1 s.ctrl1) s with save1 := s.ctrl1 })

/-- `S_SAVE2` (41_config R144). -/
def rstSave2 (s : State) : Result := .next (goto .sRstA { note (.regRead2 s.ctrl2) s with save2 := s.ctrl2 })

/-- `S_RSTA` (41_config R144). -/
def rstRstA (s : State) : Result := .next (assertStep .sRstD s)

/-- `S_RSTD` (41_config R144): `cfg` still holds its old value here. -/
def rstRstD (s : State) : Result := .next (goto .sRest1 (rstDeassert s))

/-- `S_REST1` (41_config R144): group 1 is restored but for the enable bit (`RESET_RESTORES_EN` is false, C5, D15). -/
def rstRest1 (s : State) : Result := .next (goto .sRest2 (regWrite (restoreGroup1 s.save1) s))

/-- `S_REST2` (41_config R144). -/
def rstRest2 (s : State) : Result :=
  .next (finish .ok { regWrite (restoreGroup2 s.save2) s with cfg := .disabledConfigured })

/-- REL at acceptance (41_config R146). -/
def execRel (s : State) : Result := accept (boundReady s) (goto .lRel) s

/-- `L_REL` (41_config R146): no transaction is made and no field changes. -/
def relRelease (s : State) : Result := .next (finish .ok { s with own := .free })

end Sys2Proof.Machine
end

