-- ==== Sys2Proof/Machine/Transfer.lean ====
section
/-! DEFINITION. XFER8 and XFER16, the full-duplex transfers (43_transfer R170 to R183): what acceptance does, and each
micro-step. -/

namespace Sys2Proof.Machine

/-! ## XFER8 -/

/-- XFER8 at acceptance (43_transfer R170); an enabled peripheral is not required (30_encoding R97, 93 U5). -/
def execXfer8 (n : Nat) (s : State) : Result :=
  accept (fitsArg n && boundReady s && decide (s.width = .w8))
    (fun s => { s with n := BitVec.ofNat 32 n, wpos := 0#32, rpos := 0#32, tries := 0, seq := .x8Setup }) s

/-- `X8_SETUP` (43_transfer R171): only BIDIMODE is written. -/
def xfer8Setup (s : State) : Result := .next (goto .x8Main (regWrite [.bidimode false] s))

/-- `X8_MAIN` (43_transfer R171): the main loop runs while elements remain to be sent (C4). -/
def xfer8Main (s : State) : Result := .next (goto (if s.wpos < s.n then .x8Fill else .x8Drain) s)

/-- `X8_FILL` (43_transfer R172): the bound is tested before any poll. -/
def xfer8Fill (s : State) : Result := .next (goto (if s.wpos < s.n then .x8FillPoll else .x8ReadPoll) s)

/-- `X8_FILL_POLL` (43_transfer R172). -/
def xfer8FillPoll (s : State) : Result :=
  .next (pollThen .send (goto .x8FillSend) (goto .x8ReadPoll) (failTransfer .w8) s)

/-- `X8_FILL_SEND` (43_transfer R172). -/
def xfer8FillSend (s : State) : Result := sendElem .w8 .x8Fill s

/-- `X8_READ_POLL` (43_transfer R173): the poll comes first, the cursors are compared second. -/
def xfer8ReadPoll (s : State) : Result :=
  .next (pollThen .recv (fun s => goto (if s.rpos < s.wpos then .x8ReadStore else .x8Main) s) (goto .x8Main)
    (failTransfer .w8) s)

/-- `X8_READ_STORE` (43_transfer R173). -/
def xfer8ReadStore (s : State) : Result := storeElem .w8 .x8ReadPoll s

/-- `X8_DRAIN` (43_transfer R174). -/
def xfer8Drain (s : State) : Result := .next (goto (if s.rpos < s.n then .x8DrainPoll else .x8Final) s)

/-- A Would-Block in the drain loop (43_transfer R174): one more try, or `Incomplete`. -/
def drainBlocked (s : State) : State :=
  if retriesLeft s.tries s.drainRetries then { s with tries := s.tries + 1, seq := .x8DrainPoll }
  else failTransfer .w8 .incomplete s

/-- `X8_DRAIN_POLL` (43_transfer R174). -/
def xfer8DrainPoll (s : State) : Result :=
  .next (pollThen .recv (goto .x8DrainStore) drainBlocked (failTransfer .w8) s)

/-- `X8_DRAIN_STORE` (43_transfer R174): a stored element starts the count of tries again. -/
def xfer8DrainStore (s : State) : Result := storeElem .w8 .x8Drain { s with tries := 0 }

/-- `X8_FINAL` (43_transfer R175): only OVR is looked at. -/
def xfer8Final (s : State) : Result :=
  .next (if (snapshot s).stat.ovr then failLate .w8 (snapshot s) else finish .ok (snapshot s))

/-! ## XFER16 -/

/-- XFER16 at acceptance (43_transfer R180). -/
def execXfer16 (n : Nat) (s : State) : Result :=
  accept (fitsArg n && boundReady s && decide (s.width = .w16))
    (fun s => { s with n := BitVec.ofNat 32 n, wpos := 0#32, rpos := 0#32, seq := .x16Setup }) s

/-- `X16_SETUP` (43_transfer R180). -/
def xfer16Setup (s : State) : Result := .next (goto .x16Test (regWrite [.bidimode false] s))

/-- `X16_TEST` (43_transfer R180): no final overrun check (R181). -/
def xfer16Test (s : State) : Result := .next (if s.wpos < s.n then goto .x16SendPoll s else finish .ok s)

/-- `X16_SEND_POLL`: blocks on send (43_transfer R180, 42_fault_detector R166). -/
def xfer16SendPoll (s : State) : Result :=
  .next (pollThen .send (goto .x16Send) (goto .x16SendPoll) (failTransfer .w16) s)

/-- `X16_SEND` (43_transfer R180). -/
def xfer16Send (s : State) : Result := sendElem .w16 .x16RecvPoll s

/-- `X16_RECV_POLL`: blocks on recv (43_transfer R180, 42_fault_detector R166). -/
def xfer16RecvPoll (s : State) : Result :=
  .next (pollThen .recv (goto .x16Store) (goto .x16RecvPoll) (failTransfer .w16) s)

/-- `X16_STORE` (43_transfer R180). -/
def xfer16Store (s : State) : Result := storeElem .w16 .x16Test s

end Sys2Proof.Machine
end

