-- ==== Sys2Proof/Machine/Write.lean ====
section
/-! DEFINITION. WR8 and WR16, the send-only transfers (44_write R200 to R210): what acceptance does, and each
micro-step. -/

namespace Sys2Proof.Machine

/-! ## WR8 -/

/-- WR8 at acceptance (44_write R200). -/
def execWr8 (n : Nat) (s : State) : Result :=
  accept (fitsArg n && boundReady s && decide (s.width = .w8))
    (fun s => { s with n := BitVec.ofNat 32 n, wpos := 0#32, cap := 0#3, seq := .w8Setup }) s

/-- `W8_SETUP` (44_write R201): both direction fields in one transaction. -/
def wr8Setup (s : State) : Result := .next (goto .w8InitPoll (regWrite [.bidimode true, .bidioe true] s))

/-- `W8_INIT_POLL`: blocks on send (44_write R202). The buffer is unchanged by an error response (60_exceptions R231). -/
def wr8InitPoll (s : State) : Result := .next (pollThen .send (goto .w8Test) (goto .w8InitPoll) respondError s)

/-- `W8_TEST` (44_write R203). -/
def wr8Test (s : State) : Result := .next (goto (if s.wpos < s.n then .w8Cap else .w8FinalPoll) s)

/-- `W8_CAP` (44_write R203). -/
def wr8Cap (s : State) : Result := .next (goto (if s.cap = 0#3 then .w8CapRead else .w8Send) s)

/-- `W8_CAP_READ` (44_write R203): the level alone is read, no fault flag is looked at. -/
def wr8CapRead (s : State) : Result := .next (goto .w8Cap { readLevel s with cap := txcap (readLevel s).stat.txlvl })

/-- `W8_SEND` (44_write R203): one element sent, one credit used; `cap - 1` is performed only when `cap ≥ 1`
(40_divisor R126). -/
def wr8Send (s : State) : Result :=
  if s.cap = 0#3 then .fault .creditUnderflow else sendElem .w8 .w8Test { s with cap := s.cap - 1#3 }

/-- `W8_FINAL_POLL` (44_write R204). -/
def wr8FinalPoll (s : State) : Result := .next (finalPoll .w8FinalPoll s)

/-! ## WR16 -/

/-- WR16 at acceptance (44_write R208). -/
def execWr16 (n : Nat) (s : State) : Result :=
  accept (fitsArg n && boundReady s && decide (s.width = .w16))
    (fun s => { s with n := BitVec.ofNat 32 n, wpos := 0#32, seq := .w16Setup }) s

/-- `W16_SETUP` (44_write R208). -/
def wr16Setup (s : State) : Result := .next (goto .w16Test (regWrite [.bidimode true, .bidioe true] s))

/-- `W16_TEST` (44_write R208). -/
def wr16Test (s : State) : Result := .next (goto (if s.wpos < s.n then .w16Poll else .w16FinalPoll) s)

/-- `W16_POLL`: blocks on send before every element (44_write R208). -/
def wr16Poll (s : State) : Result := .next (pollThen .send (goto .w16Send) (goto .w16Poll) respondError s)

/-- `W16_SEND` (44_write R208). -/
def wr16Send (s : State) : Result := sendElem .w16 .w16Test s

/-- `W16_FINAL_POLL` (44_write R204, R208). -/
def wr16FinalPoll (s : State) : Result := .next (finalPoll .w16FinalPoll s)

end Sys2Proof.Machine
end

