-- ==== Sys2Proof/Machine/Dispatch.lean ====
section
/-! DEFINITION. What presenting a command does (30_encoding R96): one arm per command of the opcode map. The micro-steps that
follow are in Machine/Sequencer.lean. -/

namespace Sys2Proof.Machine

def exec (i : Instr) (s : State) : Host.Outcome State Fault Refusal :=
  match i with
  | .cfgc w cpol cpha rate => Sys2Proof.Machine.execCfgc w cpol cpha rate s
  | .cfgp w cpol cpha => Sys2Proof.Machine.execCfgp w cpol cpha s
  | .ena => Sys2Proof.Machine.execEna s
  | .dis => Sys2Proof.Machine.execDis s
  | .to8 => Sys2Proof.Machine.execTo8 s
  | .to16 => Sys2Proof.Machine.execTo16 s
  | .rst => Sys2Proof.Machine.execRst s
  | .rel => Sys2Proof.Machine.execRel s
  | .xfer8 n => Sys2Proof.Machine.execXfer8 n s
  | .xfer16 n => Sys2Proof.Machine.execXfer16 n s
  | .wr8 n => Sys2Proof.Machine.execWr8 n s
  | .wr16 n => Sys2Proof.Machine.execWr16 n s

end Sys2Proof.Machine
end

