-- ==== Sys2Proof/Machine/Sequencer.lean ====
section
/-! DEFINITION. The sequencer (10_state R24): the micro-step of each micro-state, and what a move from outside does while
SPIC is in Idle. -/

namespace Sys2Proof.Machine

/-- A command word on the command port (30_encoding R96): an illegal word is rejected (R94), any other is its command. -/
def acceptWord (c : CmdWord) (s : State) : Result :=
  match decode c with
  | .ok i => exec i s
  | .error _ => .next (reject s)

/-- A move from outside, SPIC being in Idle without fault (60_exceptions R240). The host's direct use of the Register
Interface has a meaning only while no handle is bound (R236, 93 U4); whether it takes effect while the clock gate is off
(70_reset_and_hazards R263) is the model's choice in `hostWrite` (log 18). -/
def takeMove (m : OutsideMove) (s : State) : Result :=
  match m with
  | .present c => acceptWord c s
  | .store w i v => .next { s with mem := writeElem w s.mem i.toNat v }
  | .fieldWrite fields => if s.own = .free then .next (hostWrite fields s) else .refused .hostContract
  | .setClock f => .next { s with fIn := f }

/-- In Idle the sequencer has no step of its own (10_state R24): the next move from outside is taken; with none to come the
machine waits (log 8). -/
def idleStep (s : State) : Result :=
  match s.outside with
  | [] => .next s
  | m :: rest => takeMove m { s with outside := rest }

/-- The micro-step of the current micro-state (10_state R24). -/
def microStep (s : State) : Result :=
  match s.seq with
  | .idle => idleStep s
  | .cClk => cfgcClk s
  | .cRstA => cfgcRstA s
  | .cRstD => cfgcRstD s
  | .cDis => cfgcDis s
  | .cCtrl => cfgcCtrl s
  | .cWidth => cfgcWidth s
  | .cEn => cfgcEn s
  | .pClk => cfgpClk s
  | .pRstA => cfgpRstA s
  | .pRstD => cfgpRstD s
  | .pDis => cfgpDis s
  | .pCtrl => cfgpCtrl s
  | .pWidth => cfgpWidth s
  | .pEn => cfgpEn s
  | .eWrite => enaWrite s
  | .dWrite => disWrite s
  | .vWrite t => convertWrite t s
  | .sSave1 => rstSave1 s
  | .sSave2 => rstSave2 s
  | .sRstA => rstRstA s
  | .sRstD => rstRstD s
  | .sRest1 => rstRest1 s
  | .sRest2 => rstRest2 s
  | .lRel => relRelease s
  | .x8Setup => xfer8Setup s
  | .x8Main => xfer8Main s
  | .x8Fill => xfer8Fill s
  | .x8FillPoll => xfer8FillPoll s
  | .x8FillSend => xfer8FillSend s
  | .x8ReadPoll => xfer8ReadPoll s
  | .x8ReadStore => xfer8ReadStore s
  | .x8Drain => xfer8Drain s
  | .x8DrainPoll => xfer8DrainPoll s
  | .x8DrainStore => xfer8DrainStore s
  | .x8Final => xfer8Final s
  | .x16Setup => xfer16Setup s
  | .x16Test => xfer16Test s
  | .x16SendPoll => xfer16SendPoll s
  | .x16Send => xfer16Send s
  | .x16RecvPoll => xfer16RecvPoll s
  | .x16Store => xfer16Store s
  | .w8Setup => wr8Setup s
  | .w8InitPoll => wr8InitPoll s
  | .w8Test => wr8Test s
  | .w8Cap => wr8Cap s
  | .w8CapRead => wr8CapRead s
  | .w8Send => wr8Send s
  | .w8FinalPoll => wr8FinalPoll s
  | .w16Setup => wr16Setup s
  | .w16Test => wr16Test s
  | .w16Poll => wr16Poll s
  | .w16Send => wr16Send s
  | .w16FinalPoll => wr16FinalPoll s

/-- The sequencer: no step at all once it has faulted (10_state R24, 60_exceptions R226), else the micro-step. -/
def sequencerStep (s : State) : Result :=
  match s.fault with
  | .noFault => microStep s
  | .divisorUndefined => .fault .divisorUndefined

/-- One step of the machine: the block reset if it is due, whatever SPIC is doing, the faulted state included
(70_reset_and_hazards R260, R276), else a step of the sequencer. When it is due is the model's choice (log 8). -/
def machineStep (s : State) : Result := if resetDue s then .next (takeReset s) else sequencerStep (tick s)

/-- The word `c` on the command port of a SPIC that is ready for it: the host's next move presents it, the sequencer is in
Idle without fault (30_encoding R96), and no block reset is to come. -/
def presentNext (c : CmdWord) (s : State) : State :=
  { s with seq := .idle, fault := .noFault, outside := .present c :: s.outside, resets := [] }

end Sys2Proof.Machine
end

