-- ==== Sys2Proof/Machine/Step.lean ====
section
/-! DEFINITION. One step of SPIC (10_state R24), and how a command word comes to be the next thing it runs. -/

namespace Sys2Proof.Machine

/-- One step: a move from outside or one micro-step (10_state R24). -/
def step (s : State) : Host.Outcome State Fault Refusal := machineStep s

/-- `s` with the command word `w` on the command port, so that the very next step takes it (log 8). The bits above `nbits`
are 0. -/
def State.withFetchWord (s : State) (nbits w : Nat) : State := presentNext (BitVec.ofNat 64 (w % 2 ^ nbits)) s

end Sys2Proof.Machine
end

