-- ==== Sys2Proof/Safety.lean ====
section
/-! DEFINITION. What counts as a good state and a good run of SPIC, in the terms the statements use: what an access log says
was sent, received and stored, when a run has ended well (60_exceptions R241), the environment premises of 20_memory R75
to R79 that can be said of a log or an environment, and the invariants of the machine. -/

namespace Sys2Proof.Machine

/-! ## Reading an access log (00_scope R12) -/

/-- The values of the `DataWrite`s, oldest first. -/
def sentValues : List Access → List Half
  | [] => []
  | .dataWrite _ v :: rest => v :: sentValues rest
  | _ :: rest => sentValues rest

/-- The values the `DataRead`s returned, oldest first. -/
def receivedValues : List Access → List Half
  | [] => []
  | .dataRead _ v :: rest => v :: receivedValues rest
  | _ :: rest => receivedValues rest

/-- The values of the `MemWrite`s, oldest first. -/
def storedValues : List Access → List Half
  | [] => []
  | .memWrite _ _ v :: rest => v :: storedValues rest
  | _ :: rest => storedValues rest

/-- The status snapshots, oldest first. -/
def snapshotsSeen : List Access → List Status
  | [] => []
  | .snapshot s :: rest => s :: snapshotsSeen rest
  | _ :: rest => snapshotsSeen rest

/-- The level codes read, oldest first. -/
def levelsSeen : List Access → List (BitVec 2)
  | [] => []
  | .levelRead c :: rest => c :: levelsSeen rest
  | _ :: rest => levelsSeen rest

/-- Every `DataRead` follows a status poll that returned Ready for receiving, with no other transaction on the register port
between them (43_transfer R176). `armed` says that the latest register transaction was such a poll. -/
def readsFollowPolls (armed : Bool) : List Access → Bool
  | [] => true
  | .snapshot s :: rest => readsFollowPolls (decide (poll .recv s = .ready)) rest
  | .dataRead _ _ :: rest => armed && readsFollowPolls false rest
  | .memRead _ _ _ :: rest => readsFollowPolls armed rest
  | .memWrite _ _ _ :: rest => readsFollowPolls armed rest
  | _ :: rest => readsFollowPolls false rest

/-- `DataWrite` and `DataRead` strictly alternate (43_transfer R182). `outstanding` says that a write has had no read yet. -/
def alternates (outstanding : Bool) : List Access → Bool
  | [] => true
  | .dataWrite _ _ :: rest => !outstanding && alternates true rest
  | .dataRead _ _ :: rest => outstanding && alternates false rest
  | _ :: rest => alternates outstanding rest

/-- At most `refill c` data writes follow each read of TXLVL that returned `c`, up to the next such read; `left` more may
precede the first (44_write R203, R205). -/
def writesWithin (refill : BitVec 2 → Nat) (left : Nat) : List Access → Bool
  | [] => true
  | .levelRead c :: rest => writesWithin refill (refill c) rest
  | .dataWrite _ _ :: rest => decide (0 < left) && writesWithin refill (left - 1) rest
  | _ :: rest => writesWithin refill left rest

/-- The first `k` elements of the buffer. -/
def bufferElems (w : Width) (m : Memory) (k : Nat) : List Half := (List.range k).map (readElem w m)

/-- A `MemRead` or a `MemWrite`; every other entry is a transaction on the register port or the reset-and-clock port
(00_scope R9). -/
def isBufferAccess : Access → Bool
  | .memRead _ _ _ => true
  | .memWrite _ _ _ => true
  | _ => false

/-! ## Runs and premises -/

/-- `k` steps of the machine, stopping at the first fault or refusal. -/
abbrev runSteps (k : Nat) (s : State) : Result := Sys2Proof.core.run k s

/-- A command has ended well (60_exceptions R241): Idle, no fault, and the response `r` that was expected. -/
abbrev EndedWell (r : Resp) (s : State) : Prop := s.seq = .idle ∧ s.fault = .noFault ∧ s.resp = r

/-- The step from `s` to `t` ends a command (60_exceptions R241): it is a step of the sequencer that ends in Idle and is the
last micro-step of a command, or the rejection of one presented in Idle. -/
def endsCommand (s t : State) : Bool :=
  !resetDue s && decide (t.seq = .idle) &&
    (decide (s.seq ≠ .idle) ||
      match s.outside with
      | .present _ :: _ => true
      | _ => false)

/-- The responses of the commands that end within `k` steps, oldest first (60_exceptions R241). -/
def responses : Nat → State → List Resp
  | 0, _ => []
  | k + 1, s =>
    match step s with
    | .next t => if endsCommand s t then t.resp :: responses k t else responses k t
    | .fault _ => []
    | .refused _ => []

/-- A run, a sequence of commands, has ended well after `k` steps (60_exceptions R241): Idle, no fault, and every response was
the expected one. -/
def RunEndedWell (k : Nat) (s : State) (expected : List Resp) : Prop :=
  ∃ t, runSteps k s = .next t ∧ t.seq = .idle ∧ t.fault = .noFault ∧ responses k s = expected

/-- The block reset is not due: the next step is the sequencer's (70_reset_and_hazards R260; log 8). -/
def noBlockReset (s : State) : Bool := !resetDue s

/-- No block reset comes at all (log 8). -/
abbrev NoResetToCome (s : State) : Prop := s.resets = []

/-- SPIC can take a command: Idle and no fault (30_encoding R96). -/
abbrev Ready (s : State) : Prop := s.seq = .idle ∧ s.fault = .noFault

/-- A live handle, ready for a command (30_encoding R97). -/
abbrev ReadyHandle (s : State) : Prop := Ready s ∧ boundReady s = true

/-- Legality of a command in a state (30_encoding R97), row by row. -/
def Legal (i : Instr) (s : State) : Prop :=
  match i with
  | .cfgc _ _ _ _ => s.own = .free
  | .cfgp _ _ _ => s.own = .free
  | .ena => s.own = .bound ∧ (s.cfg = .disabledConfigured ∨ s.cfg = .enabled)
  | .dis => s.own = .bound ∧ (s.cfg = .disabledConfigured ∨ s.cfg = .enabled)
  | .to8 => s.own = .bound ∧ (s.cfg = .disabledConfigured ∨ s.cfg = .enabled)
  | .to16 => s.own = .bound ∧ (s.cfg = .disabledConfigured ∨ s.cfg = .enabled)
  | .rst => s.own = .bound ∧ (s.cfg = .disabledConfigured ∨ s.cfg = .enabled)
  | .rel => s.own = .bound ∧ (s.cfg = .disabledConfigured ∨ s.cfg = .enabled)
  | .xfer8 _ => s.own = .bound ∧ (s.cfg = .disabledConfigured ∨ s.cfg = .enabled) ∧ s.width = .w8
  | .xfer16 _ => s.own = .bound ∧ (s.cfg = .disabledConfigured ∨ s.cfg = .enabled) ∧ s.width = .w16
  | .wr8 _ => s.own = .bound ∧ (s.cfg = .disabledConfigured ∨ s.cfg = .enabled) ∧ s.width = .w8
  | .wr16 _ => s.own = .bound ∧ (s.cfg = .disabledConfigured ∨ s.cfg = .enabled) ∧ s.width = .w16

/-- The first micro-state of each command (10_state R23). -/
def firstSeq : Instr → Seq
  | .cfgc _ _ _ _ => .cClk
  | .cfgp _ _ _ => .pClk
  | .ena => .eWrite
  | .dis => .dWrite
  | .to8 => .vWrite .w8
  | .to16 => .vWrite .w16
  | .rst => .sSave1
  | .rel => .lRel
  | .xfer8 _ => .x8Setup
  | .xfer16 _ => .x16Setup
  | .wr8 _ => .w8Setup
  | .wr16 _ => .w16Setup

/-- The micro-states of the two construction commands (10_state R23). -/
def inConstruction : Seq → Bool
  | .cClk | .cRstA | .cRstD | .cDis | .cCtrl | .cWidth | .cEn => true
  | .pClk | .pRstA | .pRstD | .pDis | .pCtrl | .pWidth | .pEn => true
  | _ => false

/-- The micro-states of RST (10_state R23). -/
def inReset : Seq → Bool
  | .sSave1 | .sSave2 | .sRstA | .sRstD | .sRest1 | .sRest2 => true
  | _ => false

/-- The micro-states of the eight configuration commands (10_state R23). -/
def inConfiguration (q : Seq) : Bool :=
  inConstruction q || inReset q ||
    match q with
    | .eWrite | .dWrite | .vWrite _ | .lRel => true
    | _ => false

/-- The micro-states of XFER8 (10_state R23). -/
def inXfer8 : Seq → Bool
  | .x8Setup | .x8Main | .x8Fill | .x8FillPoll | .x8FillSend | .x8ReadPoll | .x8ReadStore | .x8Drain | .x8DrainPoll
  | .x8DrainStore | .x8Final => true
  | _ => false

/-- The micro-states of XFER16 (10_state R23). -/
def inXfer16 : Seq → Bool
  | .x16Setup | .x16Test | .x16SendPoll | .x16Send | .x16RecvPoll | .x16Store => true
  | _ => false

/-- The micro-states of WR8 and WR16 (10_state R23). -/
def inWrite : Seq → Bool
  | .w8Setup | .w8InitPoll | .w8Test | .w8Cap | .w8CapRead | .w8Send | .w8FinalPoll => true
  | .w16Setup | .w16Test | .w16Poll | .w16Send | .w16FinalPoll => true
  | _ => false

/-- The micro-states of the four transfer commands (10_state R23). -/
def inTransfer (q : Seq) : Bool := inXfer8 q || inXfer16 q || inWrite q

/-- The micro-states whose poll propagates a fault, all but the two final polls (60_exceptions R221, R232). -/
def propagatingPoll : Seq → Bool
  | .x8FillPoll | .x8ReadPoll | .x8DrainPoll | .x16SendPoll | .x16RecvPoll | .w8InitPoll | .w16Poll => true
  | _ => false

/-- The micro-states that block on a readiness bit, with that bit (42_fault_detector R166). -/
def blocksOn : Seq → Option PollKind
  | .x16SendPoll => some .send
  | .x16RecvPoll => some .recv
  | .w8InitPoll => some .send
  | .w16Poll => some .send
  | .w8FinalPoll => some .send
  | .w16FinalPoll => some .send
  | _ => none

/-- The next `k` status snapshots of an environment all meet `p`. -/
def statusesFor (p : Status → Bool) : Nat → Env → Nat → Bool
  | 0, _, _ => true
  | k + 1, e, d => p (envStatus e d) && statusesFor p k (envAfterStatus e) (d + envStatusDraws e)

/-- The next `k` reads of TXLVL of an environment all meet `p`. -/
def levelsFor (p : BitVec 2 → Bool) : Nat → Env → Nat → Bool
  | 0, _, _ => true
  | k + 1, e, d => p (envLevel e d) && levelsFor p k (envAfterLevel e) (d + envLevelDraws e)

/-- A poll of this kind would block on the snapshot. -/
def blocks (kind : PollKind) (s : Status) : Bool := decide (poll kind s = .wouldBlock)

/-- The command is in one of the places where 60_exceptions R233 lets it stay for ever, and the environment keeps it there for
`k` reads. -/
def stuckFor (k : Nat) (s : State) : Prop :=
  match s.seq with
  | .x8Main | .x8Fill | .x8FillPoll | .x8ReadPoll =>
    s.wpos < s.n ∧ statusesFor (fun st => blocks .send st && blocks .recv st) k s.env s.draws = true
  | .x8DrainPoll => s.drainRetries = .infinite ∧ statusesFor (blocks .recv) k s.env s.draws = true
  | .x16RecvPoll => statusesFor (blocks .recv) k s.env s.draws = true
  | .x16SendPoll | .w8InitPoll | .w16Poll | .w8FinalPoll | .w16FinalPoll =>
    statusesFor (blocks .send) k s.env s.draws = true
  | .w8Cap => s.cap = 0#3 ∧ levelsFor (fun c => decide (txcap c = 0#3)) k s.env s.draws = true
  | .w8CapRead => levelsFor (fun c => decide (txcap c = 0#3)) k s.env s.draws = true
  | _ => False

/-- The micro-states a command goes round in while it is stuck in `q` (60_exceptions R233). -/
def stuckLoop : Seq → List Seq
  | .x8Main | .x8Fill | .x8FillPoll | .x8ReadPoll => [.x8Main, .x8Fill, .x8FillPoll, .x8ReadPoll]
  | .w8Cap | .w8CapRead => [.w8Cap, .w8CapRead]
  | q => [q]

/-- 20_memory R76 (environment premise): what has been received is a front part of what has been sent, as over a direct
loopback with delay 0. -/
abbrev LoopbackPremise (l : List Access) : Prop := receivedValues l <+: sentValues l

/-- 20_memory R77, R79 (environment premise): no snapshot shows a fault flag. -/
abbrev NoFaultPremise (l : List Access) : Prop := ∀ s ∈ snapshotsSeen l, s.ovr = false ∧ s.modf = false

/-- 20_memory R78 (environment premise): in the send-only direction nothing has been received. -/
abbrev NothingReceivedPremise (l : List Access) : Prop := receivedValues l = []

/-! ## Invariants -/

/-- The memory is in its canonical form. -/
abbrev MemoryOk (s : State) : Prop := s.mem.wf

/-- The cursors (10_state R25, 43_transfer R170 to R174, R180, 44_write R203, R208): `rpos ≤ wpos ≤ n` in every
micro-state of a transfer, and the bound that each step which touches an element relies on. -/
def CursorsOk (s : State) : Prop :=
  match s.seq with
  | .x8Setup | .x8Main | .x8Fill | .x8ReadPoll => s.rpos.toNat ≤ s.wpos.toNat ∧ s.wpos.toNat ≤ s.n.toNat
  | .x8FillPoll | .x8FillSend => s.rpos.toNat ≤ s.wpos.toNat ∧ s.wpos.toNat < s.n.toNat
  | .x8ReadStore => s.rpos.toNat < s.wpos.toNat ∧ s.wpos.toNat ≤ s.n.toNat
  | .x8Drain => s.rpos.toNat ≤ s.wpos.toNat ∧ s.wpos.toNat = s.n.toNat
  | .x8DrainPoll | .x8DrainStore => s.rpos.toNat < s.wpos.toNat ∧ s.wpos.toNat = s.n.toNat
  | .x8Final => s.rpos.toNat = s.wpos.toNat ∧ s.wpos.toNat = s.n.toNat
  | .x16Setup | .x16Test => s.rpos.toNat = s.wpos.toNat ∧ s.wpos.toNat ≤ s.n.toNat
  | .x16SendPoll | .x16Send => s.rpos.toNat = s.wpos.toNat ∧ s.wpos.toNat < s.n.toNat
  | .x16RecvPoll | .x16Store => s.rpos.toNat + 1 = s.wpos.toNat ∧ s.wpos.toNat ≤ s.n.toNat
  | .w8Setup | .w8InitPoll | .w8Test | .w16Setup | .w16Test => s.wpos.toNat ≤ s.n.toNat
  | .w8Cap | .w8CapRead | .w8Send | .w16Poll | .w16Send => s.wpos.toNat < s.n.toNat
  | .w8FinalPoll | .w16FinalPoll => s.wpos.toNat = s.n.toNat
  | _ => True

/-- The credit counter of WR8 (10_state R20, 40_divisor R126): 0 to 4 while WR8 runs, at least 1 in `W8_SEND`. -/
def CreditOk (s : State) : Prop :=
  match s.seq with
  | .w8Setup | .w8InitPoll | .w8Test | .w8Cap | .w8CapRead | .w8FinalPoll => s.cap.toNat ≤ 4
  | .w8Send => 1 ≤ s.cap.toNat ∧ s.cap.toNat ≤ 4
  | _ => True

/-- `tries ≤ DRAIN_RETRIES` (10_state R20). -/
def triesWithin (tries : Nat) : Retries → Prop
  | .finite k => tries ≤ k
  | .infinite => True

/-- The tries of the drain loop (10_state R20): bounded by `DRAIN_RETRIES` while XFER8 runs. -/
def TriesOk (s : State) : Prop :=
  match s.seq with
  | .x8Setup | .x8Main | .x8Fill | .x8FillPoll | .x8FillSend | .x8ReadPoll | .x8ReadStore | .x8Drain | .x8DrainPoll
  | .x8DrainStore | .x8Final => triesWithin s.tries s.drainRetries
  | _ => True

/-- A transfer runs only at its own width (20_memory R62, 30_encoding R97). -/
def WidthOk (s : State) : Prop :=
  match s.seq with
  | .x8Setup | .x8Main | .x8Fill | .x8FillPoll | .x8FillSend | .x8ReadPoll | .x8ReadStore | .x8Drain | .x8DrainPoll
  | .x8DrainStore | .x8Final | .w8Setup | .w8InitPoll | .w8Test | .w8Cap | .w8CapRead | .w8Send | .w8FinalPoll =>
    s.width = .w8
  | .x16Setup | .x16Test | .x16SendPoll | .x16Send | .x16RecvPoll | .x16Store | .w16Setup | .w16Test | .w16Poll
  | .w16Send | .w16FinalPoll => s.width = .w16
  | _ => True

/-- `own = Bound` and `cfg` DisabledConfigured or Enabled (30_encoding R97), as a proposition. -/
abbrev BoundReady (s : State) : Prop := s.own = .bound ∧ (s.cfg = .disabledConfigured ∨ s.cfg = .enabled)

/-- The lifecycle state in each micro-state (10_state R26, R27): a running command has a bound handle, of the role its
construction command says (41_config R130, R136); outside construction a bound handle is DisabledConfigured or Enabled. -/
def LifecycleOk (s : State) : Prop :=
  match s.seq with
  | .idle => s.own = .free ∨ BoundReady s
  | .cClk | .cRstA | .cRstD => s.own = .bound ∧ s.role = .controller
  | .cDis => s.own = .bound ∧ s.role = .controller ∧ s.cfg = .reset
  | .cCtrl | .cWidth => s.own = .bound ∧ s.role = .controller ∧ s.cfg = .disabledConfiguring
  | .cEn => s.own = .bound ∧ s.role = .controller ∧ s.cfg = .disabledConfigured
  | .pClk | .pRstA | .pRstD => s.own = .bound ∧ s.role = .peripheral
  | .pDis => s.own = .bound ∧ s.role = .peripheral ∧ s.cfg = .reset
  | .pCtrl | .pWidth => s.own = .bound ∧ s.role = .peripheral ∧ s.cfg = .disabledConfiguring
  | .pEn => s.own = .bound ∧ s.role = .peripheral ∧ s.cfg = .disabledConfigured
  | _ => BoundReady s

/-- The response while a command runs is None (10_state R21, 30_encoding R96). -/
def ResponseOk (s : State) : Prop := s.seq = .idle ∨ s.resp = .none

/-- The clock gate and the reset line in each micro-state (41_config R131, R144; 70_reset_and_hazards R263): the gate is
enabled before the reset pulse, and SPIC writes a control field only with the gate on and the line released. -/
def PortOk (s : State) : Prop :=
  match s.seq with
  | .idle => s.own = .free ∨ (s.clkEn = true ∧ s.rstLine = false)
  | .cClk | .pClk => True
  | .cRstA | .pRstA => s.clkEn = true
  | .cRstD | .pRstD | .sRstD => s.clkEn = true ∧ s.rstLine = true
  | _ => s.clkEn = true ∧ s.rstLine = false

/-- The one faulted state (60_exceptions R226): `seq` stays C_CTRL, and the divisor of the latched operands is undefined. -/
def FaultOk (s : State) : Prop := s.fault = .noFault ∨ (s.seq = .cCtrl ∧ divisor s.fin s.freq = none)

/-- Group 2 as the width tag wants it (10_state R33), slave-select output disabled (R30). -/
def group2Of (w : Width) : Ctrl2 where
  ssoe := false
  dsize := ds w
  rxth := th w

/-- 1 in the Controller role (10_state R47: SSM and SSI). -/
def controllerFlag : Role → Bool
  | .controller => true
  | .peripheral => false

/-- 1 in the lifecycle state Enabled (10_state R26, R34). -/
def enabledFlag : Lifecycle → Bool
  | .enabled => true
  | .reset => false
  | .disabledConfiguring => false
  | .disabledConfigured => false

/-- The fields of group 1 that construction fixes (10_state R47, 41_config R147): Mode, slave management, bit order and
receive-only mode. -/
def Group1Agrees (s : State) (c : Ctrl1) : Prop :=
  c.cpol = s.cpol ∧ c.cpha = s.cpha ∧ c.lsbfirst = false ∧ c.rxonly = false ∧
    c.ssm = controllerFlag s.role ∧ c.ssi = controllerFlag s.role

/-- The enable bit says what `cfg` says (10_state R34), where MSTR and EN are specified (93 U9). -/
def EnableAgrees (s : State) : Prop := s.roleEnableOpen = true ∨ s.ctrl1.en = enabledFlag s.cfg

/-- The control fields are the image of the handle (10_state R33, R34, R47). -/
def HandleImage (s : State) : Prop := Group1Agrees s s.ctrl1 ∧ s.ctrl2 = group2Of s.width ∧ EnableAgrees s

/-- The control fields in each micro-state (10_state R33, R34, R45, R47): a reset pulse leaves all 0, construction and RST
bring them to the image of the handle, and every other command keeps it. -/
def FieldsOk (s : State) : Prop :=
  match s.seq with
  | .idle => s.own = .free ∨ HandleImage s
  | .cClk | .cRstA | .cRstD | .pClk | .pRstA | .pRstD => True
  | .cDis | .pDis | .cCtrl | .pCtrl => s.ctrl1 = ctrl1AfterPulse ∧ s.ctrl2 = ctrl2AfterPulse ∧ s.roleEnableOpen = false
  | .cWidth | .pWidth =>
    Group1Agrees s s.ctrl1 ∧ s.ctrl1.en = false ∧ s.ctrl2 = ctrl2AfterPulse ∧ s.roleEnableOpen = false
  | .cEn | .pEn => Group1Agrees s s.ctrl1 ∧ s.ctrl2 = group2Of s.width ∧ s.roleEnableOpen = false
  | .sSave1 => Group1Agrees s s.ctrl1 ∧ s.ctrl2 = group2Of s.width
  | .sSave2 => Group1Agrees s s.save1 ∧ s.ctrl2 = group2Of s.width
  | .sRstA | .sRstD => Group1Agrees s s.save1 ∧ s.save2 = group2Of s.width
  | .sRest1 =>
    Group1Agrees s s.save1 ∧ s.save2 = group2Of s.width ∧ s.roleEnableOpen = false ∧
      s.ctrl1 = ctrl1AfterPulse ∧ s.ctrl2 = ctrl2AfterPulse
  | .sRest2 =>
    Group1Agrees s s.ctrl1 ∧ s.save2 = group2Of s.width ∧ s.roleEnableOpen = false ∧ s.ctrl1.en = false
  | _ => HandleImage s

/-- The invariant of the machine: every part above. -/
structure Inv (s : State) : Prop where
  memory : MemoryOk s
  cursors : CursorsOk s
  credit : CreditOk s
  tries : TriesOk s
  width : WidthOk s
  lifecycle : LifecycleOk s
  response : ResponseOk s
  faulted : FaultOk s
  fields : FieldsOk s
  ports : PortOk s

end Sys2Proof.Machine
end

