-- ==== Sys2Proof/Certificates/Slice0/Obligations.lean ====
section
/-! DEFINITION. The statements for the provers. Each docstring names the rule of spec/ it formalises, or says that it is
derived or the model's choice. A premise `noBlockReset s` says that the next step is the sequencer's and not SPIC's own
reset from outside, and `NoResetToCome s` that no such reset comes at all (log 8; BlockResetComesAnyTime says what one does,
and that one to come later changes no step before it); `Ready s` says that SPIC is in Idle without fault; `ReadyHandle s` that
a handle is live as well. The list `resets` counts down at each step, whence `resets := later s.resets`. -/

open Sys2Proof Sys2Proof.Machine

/-! ## Encoding (30_encoding) -/

/-- R90, R92, R93, R95: decoding the word of a command gives the command back, with every operand. -/
def Obligations.DecodeInvertsEncode : Prop := ∀ i : Instr, i.WellFormed → decode (encode i) = .ok i

/-- R90 to R95: a word has no other reading than the command whose word it is, so no bit of it is dropped. -/
def Obligations.EncodeInvertsDecode : Prop :=
  ∀ (c : CmdWord) (i : Instr), decode c = .ok i → encode i = c ∧ i.WellFormed

/-- R93, R94: a word is a command exactly when it matches a row of the opcode map, and then it is that row's command. -/
def Obligations.OpcodeMapDecides : Prop :=
  ∀ c : CmdWord,
    ((∃ i, decode c = .ok i) ↔ ∃ j : Instr, c &&& j.maskWord = j.matchWord) ∧
    ∀ i j : Instr, decode c = .ok i → c &&& j.maskWord = j.matchWord → firstSeq i = firstSeq j

/-- R104: the worked encodings, and the words it calls illegal. -/
def Obligations.WorkedEncodingsDecode : Prop :=
  decode 0x01000003000F4240#64 = .ok (.cfgc .w8 true true 1000000) ∧
  decode 0x0200000500000000#64 = .ok (.cfgp .w16 false true) ∧
  decode 0x0600000000000000#64 = .ok .to16 ∧
  decode 0x1000000000000003#64 = .ok (.xfer8 3) ∧
  decode 0x1300000000000002#64 = .ok (.wr16 2) ∧
  decode 0x1000000100000003#64 = .error .operand ∧
  decode 0x0000000000000000#64 = .error .opcode ∧
  decode 0x0200000000000001#64 = .error .operand

/-- R103: each field stands in its register word at the bits the table gives it, the bits the table does not list read as 0, and
packing loses nothing; the four registers lie at their offsets; `DATA` holds the whole data word, of which an 8-bit access uses
the low byte; a write of fields of one control register changes the word of no other (of `STAT` and `DATA` where no ModeFault
response leaves MSTR and EN unspecified, 93 U9, as there the write uses free values; log 7); `StatusSnapshot()` is a read of
`STAT`, `RegRead` of a group a read of its control register, and `DataRead` a read of `DATA`. -/
def Obligations.PackingRoundTrip : Prop :=
  (∀ c : Ctrl1, unpackCtrl1 (packCtrl1 c) = c ∧ packCtrl1 c &&& 0x3800#16 = 0#16 ∧
    (packCtrl1 c).getLsbD 0 = c.cpha ∧ (packCtrl1 c).getLsbD 1 = c.cpol ∧ (packCtrl1 c).getLsbD 2 = c.mstr ∧
    (packCtrl1 c).extractLsb' 3 3 = c.br ∧ (packCtrl1 c).getLsbD 6 = c.en ∧ (packCtrl1 c).getLsbD 7 = c.lsbfirst ∧
    (packCtrl1 c).getLsbD 8 = c.ssi ∧ (packCtrl1 c).getLsbD 9 = c.ssm ∧ (packCtrl1 c).getLsbD 10 = c.rxonly ∧
    (packCtrl1 c).getLsbD 14 = c.bidioe ∧ (packCtrl1 c).getLsbD 15 = c.bidimode) ∧
  (∀ c : Ctrl2, unpackCtrl2 (packCtrl2 c) = c ∧ packCtrl2 c &&& 0xE7FB#16 = 0#16 ∧
    (packCtrl2 c).getLsbD 2 = c.ssoe ∧ (packCtrl2 c).getLsbD 11 = c.dsize ∧ (packCtrl2 c).getLsbD 12 = c.rxth) ∧
  (∀ s : Status, unpackStatus (packStatus s) = s ∧ packStatus s &&& 0xE71C#16 = 0#16 ∧
    (packStatus s).getLsbD 0 = s.rxne ∧ (packStatus s).getLsbD 1 = s.txe ∧ (packStatus s).getLsbD 5 = s.modf ∧
    (packStatus s).getLsbD 6 = s.ovr ∧ (packStatus s).getLsbD 7 = s.bsy ∧ (packStatus s).extractLsb' 11 2 = s.txlvl) ∧
  (∀ v : Half, packData .w16 v = v ∧ packData .w8 v = v &&& 0x00FF#16) ∧
  (registerOffset .ctrl1 = 0x00 ∧ registerOffset .ctrl2 = 0x04 ∧ registerOffset .stat = 0x08 ∧
    registerOffset .data = 0x0C) ∧
  (∀ (fs : List FieldVal) (r q : RegName) (s : State), (∀ f ∈ fs, fieldRegister f = r) → q ≠ r →
    (q = .ctrl1 ∨ q = .ctrl2 ∨ s.roleEnableOpen = false) → registerWord q (setFields fs s) = registerWord q s) ∧
  ∀ s : State,
    (∃ st, (snapshot s).log = s.log ++ [.snapshot st] ∧ (snapshot s).stat = st ∧ packStatus st = registerWord .stat s) ∧
    (∃ c, rstSave1 s = .next (goto .sSave2 { note (.regRead1 c) s with save1 := c }) ∧ packCtrl1 c = registerWord .ctrl1 s) ∧
    (∃ c, rstSave2 s = .next (goto .sRstA { note (.regRead2 c) s with save2 := c }) ∧ packCtrl2 c = registerWord .ctrl2 s) ∧
    (dataRead s.width s).log = s.log ++ [.dataRead s.width (registerWord .data s)]

/-! ## Acceptance (30_encoding R94, R96, R97, 60_exceptions R224) -/

/-- R96: a command word presented in Idle is the acceptance of the command it decodes to; the word is taken off the command
port (the list `outside`) and the steps to the next block reset are counted down (both the model's choice of log 8), and
nothing else is around `exec`. -/
def Obligations.StepRunsDecodedCommand : Prop :=
  ∀ (s : State) (c : CmdWord) (rest : List OutsideMove) (i : Instr),
    Ready s → noBlockReset s = true → s.outside = .present c :: rest → decode c = .ok i →
      step s = exec i { s with outside := rest, resets := later s.resets }

/-- The word that `withFetchWord` puts on the command port is what the very next step takes (log 8). -/
def Obligations.FetchWordIsTaken : Prop :=
  ∀ (s : State) (nbits w : Nat) (i : Instr), decodeTableWord nbits w = some i →
    step (s.withFetchWord nbits w) = exec i { s with seq := .idle, fault := .noFault, resets := [] }

/-- R94: an illegal word presented in Idle changes the response and nothing else, and makes no transaction. -/
def Obligations.IllegalWordRejected : Prop :=
  ∀ (s : State) (c : CmdWord) (rest : List OutsideMove),
    Ready s → noBlockReset s = true → s.outside = .present c :: rest → (∀ i, decode c ≠ .ok i) →
      step s = .next { s with outside := rest, resets := later s.resets, resp := .rejected }

/-- R97, R224: a command that is not legal in the state changes the response and nothing else; one that is legal is not
rejected. -/
def Obligations.IllegalInStateRejected : Prop :=
  ∀ (i : Instr) (s : State), Ready s → i.WellFormed →
    (¬Legal i s → exec i s = .next { s with resp := .rejected }) ∧
    (Legal i s → ∃ t, exec i s = .next t ∧ t.resp = .none ∧ t.seq = firstSeq i)

/-- R96, R97: a command that is legal in the state is accepted: `resp` is None, the command's first micro-state follows, no
control field, no byte of the buffer and no status field changes, and no transaction is made but the `FIn()` of CFGC. -/
def Obligations.LegalCommandAccepted : Prop :=
  ∀ (i : Instr) (s : State), Ready s → i.WellFormed → Legal i s →
    ∃ t, exec i s = .next t ∧ t.resp = .none ∧ t.seq = firstSeq i ∧ t.fault = .noFault ∧ t.own = .bound ∧
      t.cfg = s.cfg ∧ t.ctrl1 = s.ctrl1 ∧ t.ctrl2 = s.ctrl2 ∧ t.stat = s.stat ∧ t.mem = s.mem ∧ t.env = s.env ∧
      t.outside = s.outside ∧ t.resets = s.resets ∧
      t.log = (match i with
        | .cfgc _ _ _ _ => s.log ++ [.fIn s.fIn]
        | _ => s.log)

/-- R96, 93 U4: the host has no move on the command port unless SPIC is in Idle without fault; the model gives such a command
no meaning, by name. -/
def Obligations.CommandWhileBusyRefused : Prop :=
  ∀ (i : Instr) (s : State), ¬Ready s → exec i s = .refused .commandWhileBusy

/-- R96: while a command runs the host has no move: what it will present, the input clock (R239) and the parameter
DRAIN_RETRIES stay as they are until Idle. -/
def Obligations.NoHostMoveWhileRunning : Prop :=
  ∀ s t : State, s.seq ≠ .idle → noBlockReset s = true → step s = .next t →
    t.outside = s.outside ∧ t.resets = later s.resets ∧ t.fIn = s.fIn ∧ t.drainRetries = s.drainRetries

/-! ## Construction (41_config R130 to R138) -/

/-- R130: acceptance of CFGC, everything it latches and nothing else. -/
def Obligations.ControllerConstructionAccepted : Prop :=
  ∀ (w : Width) (cpol cpha : Bool) (rate : Nat) (s : State), Ready s → s.own = .free → rate < 2 ^ 32 →
    exec (.cfgc w cpol cpha rate) s = .next { s with
      own := .bound, role := .controller, cpol := cpol, cpha := cpha, width := w, freq := BitVec.ofNat 32 rate,
      fin := s.fIn, resp := .none, seq := .cClk, log := s.log ++ [.fIn s.fIn] }

/-- R130 to R134, R47: CFGC with `0 < f_req ≤ f_in` runs through its seven micro-steps, answers Ok and leaves the handle
Enabled with the control fields of R47; the access log is that of R135; nothing else changes but the status fields and the
environment, which a reset pulse leaves open (R45; here the free value of log 5). -/
def Obligations.ControllerConstructionCompletes : Prop :=
  ∀ (w : Width) (cpol cpha : Bool) (rate : Nat) (s : State), Ready s → s.own = .free → NoResetToCome s →
    rate < 2 ^ 32 → 0 < rate → rate ≤ s.fIn.toNat →
    ∃ k t, divisor s.fIn (BitVec.ofNat 32 rate) = some k ∧ exec (.cfgc w cpol cpha rate) s = .next t ∧
      runSteps 7 t = .next { s with
        own := .bound, cfg := .enabled, role := .controller, cpol := cpol, cpha := cpha, width := w,
        freq := BitVec.ofNat 32 rate, fin := s.fIn, resp := .ok, seq := .idle,
        ctrl1 :=
          { cpha := cpha, cpol := cpol, mstr := true, br := k, en := true, lsbfirst := false, ssi := true, ssm := true,
            rxonly := false, bidioe := false, bidimode := false },
        ctrl2 := { ssoe := false, dsize := ds w, rxth := th w },
        clkEn := true, rstLine := false, roleEnableOpen := false,
        stat := Config.freeStatus s.draws, draws := s.draws + 1, env := envAfterPulse s.env,
        log := s.log ++ [.fIn s.fIn, .clkEnable, .rstAssert, .rstDeassert, .regWrite [.en false],
          .regWrite [.cpha cpha, .cpol cpol, .mstr true, .br k, .lsbfirst false, .ssm true, .ssi true, .rxonly false,
            .bidimode false],
          .regWrite [.dsize (ds w), .rxth (th w)], .regWrite [.en true]] }

/-- R132, R226: CFGC with `f_req = 0` or `f_req > f_in` raises the sequencer fault in `C_CTRL`, with no field written by that
step: `seq` stays C_CTRL, `resp` None, the handle is bound and DisabledConfiguring, every control field is 0; after that
there is no step. -/
def Obligations.DivisorFaultStopsConstruction : Prop :=
  ∀ (w : Width) (cpol cpha : Bool) (rate : Nat) (s : State), Ready s → s.own = .free → NoResetToCome s →
    rate < 2 ^ 32 → (rate = 0 ∨ s.fIn.toNat < rate) →
    ∃ t u, exec (.cfgc w cpol cpha rate) s = .next t ∧ runSteps 5 t = .next u ∧ u.fault = .divisorUndefined ∧
      u.seq = .cCtrl ∧ u.resp = .none ∧ u.own = .bound ∧ u.cfg = .disabledConfiguring ∧ u.clkEn = true ∧
      u.ctrl1 = ctrl1AfterPulse ∧ u.ctrl2 = ctrl2AfterPulse ∧ respCode u = 7#3 ∧
      u.log = s.log ++ [.fIn s.fIn, .clkEnable, .rstAssert, .rstDeassert, .regWrite [.en false]] ∧
      step u = .fault .divisorUndefined

/-- R136: acceptance of CFGP: `fin` and `freq` are not written and `FIn()` is not called. -/
def Obligations.PeripheralConstructionAccepted : Prop :=
  ∀ (w : Width) (cpol cpha : Bool) (s : State), Ready s → s.own = .free →
    exec (.cfgp w cpol cpha) s = .next { s with
      own := .bound, role := .peripheral, cpol := cpol, cpha := cpha, width := w, resp := .none, seq := .pClk }

/-- R136, R137, R47: CFGP runs through its seven micro-steps, always answers Ok and leaves the handle Enabled with the control
fields of R47, BR and SSI at their reset value; the access log is that of R138. -/
def Obligations.PeripheralConstructionCompletes : Prop :=
  ∀ (w : Width) (cpol cpha : Bool) (s : State), Ready s → s.own = .free → NoResetToCome s →
    ∃ t, exec (.cfgp w cpol cpha) s = .next t ∧
      runSteps 7 t = .next { s with
        own := .bound, cfg := .enabled, role := .peripheral, cpol := cpol, cpha := cpha, width := w, resp := .ok, seq := .idle,
        ctrl1 :=
          { cpha := cpha, cpol := cpol, mstr := false, br := 0#3, en := true, lsbfirst := false, ssi := false, ssm := false,
            rxonly := false, bidioe := false, bidimode := false },
        ctrl2 := { ssoe := false, dsize := ds w, rxth := th w },
        clkEn := true, rstLine := false, roleEnableOpen := false,
        stat := Config.freeStatus s.draws, draws := s.draws + 1, env := envAfterPulse s.env,
        log := s.log ++ [.clkEnable, .rstAssert, .rstDeassert, .regWrite [.en false],
          .regWrite [.cpha cpha, .cpol cpol, .mstr false, .lsbfirst false, .ssm false, .rxonly false, .bidimode false],
          .regWrite [.dsize (ds w), .rxth (th w)], .regWrite [.en true]] }

/-! ## ENA, DIS, TO8, TO16, RST, REL (41_config R139 to R147) -/

/-- R139, R140: ENA and DIS write the enable bit and the lifecycle state and nothing else, where no ModeFault response has
left MSTR and EN unspecified (93 U9; log 7). -/
def Obligations.EnableDisableComplete : Prop :=
  ∀ s : State, ReadyHandle s → NoResetToCome s → s.roleEnableOpen = false →
    (∃ t, exec .ena s = .next t ∧ t = { s with resp := .none, seq := .eWrite } ∧ runSteps 1 t = .next { s with
      ctrl1 := { s.ctrl1 with en := true }, cfg := .enabled, resp := .ok, log := s.log ++ [.regWrite [.en true]] }) ∧
    ∃ t, exec .dis s = .next t ∧ t = { s with resp := .none, seq := .dWrite } ∧ runSteps 1 t = .next { s with
      ctrl1 := { s.ctrl1 with en := false }, cfg := .disabledConfigured, resp := .ok,
      log := s.log ++ [.regWrite [.en false]] }

/-- 93 U9: after a ModeFault response ENA and DIS still complete with Ok and the lifecycle state of R139 and R140; MSTR and EN
hold some value, every other control field and everything else is as before. -/
def Obligations.EnableDisableAfterModeFault : Prop :=
  ∀ s : State, ReadyHandle s → NoResetToCome s → s.roleEnableOpen = true →
    (∃ t m e, exec .ena s = .next t ∧ runSteps 1 t = .next { s with
      ctrl1 := { s.ctrl1 with mstr := m, en := e }, draws := s.draws + 2, cfg := .enabled, resp := .ok,
      log := s.log ++ [.regWrite [.en true]] }) ∧
    ∃ t m e, exec .dis s = .next t ∧ runSteps 1 t = .next { s with
      ctrl1 := { s.ctrl1 with mstr := m, en := e }, draws := s.draws + 2, cfg := .disabledConfigured, resp := .ok,
      log := s.log ++ [.regWrite [.en false]] }

/-- R141, R142: TO8 and TO16, whatever the current width: one write of the three fields, the width tag, Ok, and nothing else;
the enable state is preserved. -/
def Obligations.WidthConversionCompletes : Prop :=
  ∀ s : State, ReadyHandle s → NoResetToCome s →
    (∃ t, exec .to8 s = .next t ∧ t = { s with resp := .none, seq := .vWrite .w8 } ∧ runSteps 1 t = .next { s with
      ctrl2 := { ssoe := false, dsize := false, rxth := true }, width := .w8, resp := .ok,
      log := s.log ++ [.regWrite [.ssoe false, .rxth true, .dsize false]] }) ∧
    ∃ t, exec .to16 s = .next t ∧ t = { s with resp := .none, seq := .vWrite .w16 } ∧ runSteps 1 t = .next { s with
      ctrl2 := { ssoe := false, dsize := true, rxth := false }, width := .w16, resp := .ok,
      log := s.log ++ [.regWrite [.ssoe false, .rxth false, .dsize true]] }

/-- R143, R241: converting a handle whose fields match its 8-bit width to 16 bits and back leaves every control field, the width
and the lifecycle state as they were; and where the host presents just these two commands, that run has ended well after four
steps, with Ok and Ok as its responses. -/
def Obligations.WidthConversionReversible : Prop :=
  ∀ s : State, ReadyHandle s → NoResetToCome s → s.width = .w8 → s.ctrl2 = group2Of .w8 →
    (∃ t u v, exec .to16 s = .next t ∧ runSteps 1 t = .next u ∧ u.width = .w16 ∧ u.ctrl2 = group2Of .w16 ∧
      exec .to8 u = .next v ∧ ∃ x, runSteps 1 v = .next x ∧ x.resp = .ok ∧ x.seq = .idle ∧ x.width = s.width ∧
        x.ctrl1 = s.ctrl1 ∧ x.ctrl2 = s.ctrl2 ∧ x.cfg = s.cfg) ∧
    (s.outside = [.present (encode .to16), .present (encode .to8)] → RunEndedWell 4 s [.ok, .ok])

/-- R144: RST saves both groups, makes the reset pulse and restores every field but EN; the handle is DisabledConfigured, its
tags are unchanged; MSTR and EN are specified again. Nothing else changes but the status fields and the environment, which
a reset pulse leaves open (R45; here the free value of log 5). -/
def Obligations.ResetPreservesFields : Prop :=
  ∀ s : State, ReadyHandle s → NoResetToCome s →
    ∃ t, exec .rst s = .next t ∧ t = { s with resp := .none, seq := .sSave1 } ∧ runSteps 6 t = .next { s with
      save1 := s.ctrl1, save2 := s.ctrl2, ctrl1 := { s.ctrl1 with en := false }, cfg := .disabledConfigured, resp := .ok,
      rstLine := false, roleEnableOpen := false,
      stat := Config.freeStatus s.draws, draws := s.draws + 1, env := envAfterPulse s.env,
      log := s.log ++ [.regRead1 s.ctrl1, .regRead2 s.ctrl2, .rstAssert, .rstDeassert,
        .regWrite (restoreGroup1 s.ctrl1), .regWrite (restoreGroup2 s.ctrl2)] }

/-- R146: REL frees the handle, answers Ok, makes no transaction and changes nothing else. -/
def Obligations.ReleaseCompletes : Prop :=
  ∀ s : State, ReadyHandle s → NoResetToCome s →
    ∃ t, exec .rel s = .next t ∧ t = { s with resp := .none, seq := .lRel } ∧ runSteps 1 t = .next { s with own := .free, resp := .ok }

/-- R147: while a handle is live, outside construction and RST, no step writes CPHA, CPOL, BR, LSBFIRST, SSM, SSI or RXONLY, nor
MSTR unless a ModeFault response leaves it unspecified (93 U9; log 7), no step changes the role or the Mode, and none but the
conversion step V_WRITE, which sets the width to its target, changes the width. -/
def Obligations.HandleConfigurationImmutable : Prop :=
  ∀ s t : State, s.own = .bound → inConstruction s.seq = false → inReset s.seq = false → noBlockReset s = true →
    step s = .next t →
      t.role = s.role ∧ t.cpol = s.cpol ∧ t.cpha = s.cpha ∧ (t.width = s.width ∨ s.seq = .vWrite t.width) ∧
      t.ctrl1.cpha = s.ctrl1.cpha ∧ t.ctrl1.cpol = s.ctrl1.cpol ∧
      t.ctrl1.br = s.ctrl1.br ∧ t.ctrl1.lsbfirst = s.ctrl1.lsbfirst ∧ t.ctrl1.ssm = s.ctrl1.ssm ∧
      t.ctrl1.ssi = s.ctrl1.ssi ∧ t.ctrl1.rxonly = s.ctrl1.rxonly ∧
      (t.ctrl1.mstr = s.ctrl1.mstr ∨ t.roleEnableOpen = true)

/-- R28: after construction the direction fields are written by the first step of a transfer command and by no other step of a
live handle outside RST: full-duplex clears BIDIMODE and leaves BIDIOE, send-only sets both. -/
def Obligations.DirectionSetByFirstStep : Prop :=
  ∀ s t : State, s.own = .bound → inConstruction s.seq = false → inReset s.seq = false → noBlockReset s = true →
    step s = .next t →
      ((s.seq = .x8Setup ∨ s.seq = .x16Setup) → t.ctrl1.bidimode = false ∧ t.ctrl1.bidioe = s.ctrl1.bidioe) ∧
      ((s.seq = .w8Setup ∨ s.seq = .w16Setup) → t.ctrl1.bidimode = true ∧ t.ctrl1.bidioe = true) ∧
      (s.seq ≠ .x8Setup → s.seq ≠ .x16Setup → s.seq ≠ .w8Setup → s.seq ≠ .w16Setup →
        t.ctrl1.bidimode = s.ctrl1.bidimode ∧ t.ctrl1.bidioe = s.ctrl1.bidioe)

/-- R223: no configuration command gives an error response, as none polls status: a step of one takes no snapshot, leaves the
response at None or sets Ok, and raises no fault but the sequencer fault of CFGC. -/
def Obligations.ConfigurationGivesNoError : Prop :=
  ∀ s t : State, inConfiguration s.seq = true → s.resp = .none → noBlockReset s = true → step s = .next t →
    (t.resp = .none ∨ t.resp = .ok) ∧ (t.fault = .noFault ∨ s.seq = .cCtrl) ∧ snapshotsSeen t.log = snapshotsSeen s.log

/-- R26: `cfg` changes exactly as the table of the lifecycle says; every other step leaves it. -/
def Obligations.LifecycleTransitions : Prop :=
  ∀ s t : State, Inv s → noBlockReset s = true → step s = .next t →
    (t.cfg = .reset ∧ (s.seq = .cRstD ∨ s.seq = .pRstD)) ∨
    (s.cfg = .reset ∧ t.cfg = .disabledConfiguring ∧ (s.seq = .cDis ∨ s.seq = .pDis)) ∨
    (s.cfg = .disabledConfiguring ∧ t.cfg = .disabledConfigured ∧ (s.seq = .cWidth ∨ s.seq = .pWidth)) ∨
    (s.cfg = .disabledConfigured ∧ t.cfg = .enabled ∧ (s.seq = .cEn ∨ s.seq = .pEn)) ∨
    ((s.cfg = .disabledConfigured ∨ s.cfg = .enabled) ∧ t.cfg = .enabled ∧ s.seq = .eWrite) ∨
    ((s.cfg = .disabledConfigured ∨ s.cfg = .enabled) ∧ t.cfg = .disabledConfigured ∧ (s.seq = .dWrite ∨ s.seq = .sRest2)) ∨
    (t.cfg = s.cfg ∧ s.seq ≠ .cRstD ∧ s.seq ≠ .pRstD ∧ s.seq ≠ .cDis ∧ s.seq ≠ .pDis ∧ s.seq ≠ .cWidth ∧
      s.seq ≠ .pWidth ∧ s.seq ≠ .cEn ∧ s.seq ≠ .pEn ∧ s.seq ≠ .eWrite ∧ s.seq ≠ .dWrite ∧ s.seq ≠ .sRest2)

/-! ## The Clock Divisor Calculator (40_divisor) -/

/-- R121, R122: for `0 < f_req ≤ f_in` the selector is the bucket of the truncated ratio `r`, row by row, and (the closed form
the spec derives) the least `k` with `r < 3·2^k`, or 7 if there is none. -/
def Obligations.DivisorClosedForm : Prop :=
  ∀ fin freq : Word, 0 < freq.toNat → freq.toNat ≤ fin.toNat →
    ∃ k, divisor fin freq = some k ∧
      (fin.toNat / freq.toNat ≤ 2 → k = 0#3) ∧
      (3 ≤ fin.toNat / freq.toNat ∧ fin.toNat / freq.toNat ≤ 5 → k = 1#3) ∧
      (6 ≤ fin.toNat / freq.toNat ∧ fin.toNat / freq.toNat ≤ 11 → k = 2#3) ∧
      (12 ≤ fin.toNat / freq.toNat ∧ fin.toNat / freq.toNat ≤ 23 → k = 3#3) ∧
      (24 ≤ fin.toNat / freq.toNat ∧ fin.toNat / freq.toNat ≤ 47 → k = 4#3) ∧
      (48 ≤ fin.toNat / freq.toNat ∧ fin.toNat / freq.toNat ≤ 95 → k = 5#3) ∧
      (96 ≤ fin.toNat / freq.toNat ∧ fin.toNat / freq.toNat ≤ 191 → k = 6#3) ∧
      (192 ≤ fin.toNat / freq.toNat → k = 7#3) ∧
      (k = 7#3 ∨ fin.toNat / freq.toNat < 3 * 2 ^ k.toNat) ∧
      ∀ j : BitVec 3, j < k → 3 * 2 ^ j.toNat ≤ fin.toNat / freq.toNat

/-- R123: the divisor is undefined in exactly two cases, `f_req = 0` and `f_in < f_req`. -/
def Obligations.DivisorUndefinedExactly : Prop :=
  ∀ fin freq : Word, divisor fin freq = none ↔ freq.toNat = 0 ∨ fin.toNat < freq.toNat

/-- R124: the selector is a function of the pair, and it does not decrease as the ratio `f_in / f_req` increases. The ratios
are compared as exact rationals, by their cross products. -/
def Obligations.DivisorMonotone : Prop :=
  ∀ (fin fin' freq freq' : Word) (k k' : BitVec 3), divisor fin freq = some k → divisor fin' freq' = some k' →
    fin.toNat * freq'.toNat ≤ fin'.toNat * freq.toNat → k.toNat ≤ k'.toNat

/-- R125: whenever the effective rate `f_in / 2^(k+1)` does not exceed `f_req`, `k` is the smallest selector with that
property. -/
def Obligations.DivisorIsLeastWithinRate : Prop :=
  ∀ (fin freq : Word) (k : BitVec 3), divisor fin freq = some k → ¬rateExceeds fin freq k →
    ∀ j : BitVec 3, j < k → rateExceeds fin freq j

/-! ## The Fault Detector and polling (42_fault_detector, 60_exceptions) -/

/-- R160 to R164: the truth table of `Poll`, for both kinds. That Overrun comes before ModeFault where both flags are set is the
spec's own decision D16 (R163; log 12). -/
def Obligations.PollTruthTable : Prop :=
  ∀ s : Status,
    (s.ovr = true → poll .send s = .overrun ∧ poll .recv s = .overrun) ∧
    (s.ovr = false → s.modf = true → poll .send s = .modeFault ∧ poll .recv s = .modeFault) ∧
    (s.ovr = false → s.modf = false → s.txe = true → s.bsy = false → poll .send s = .ready) ∧
    (s.ovr = false → s.modf = false → s.txe = true → s.bsy = true → poll .send s = .wouldBlock) ∧
    (s.ovr = false → s.modf = false → s.txe = false → poll .send s = .wouldBlock) ∧
    (s.ovr = false → s.modf = false → s.rxne = true → poll .recv s = .ready) ∧
    (s.ovr = false → s.modf = false → s.rxne = false → poll .recv s = .wouldBlock)

/-- R165, R203: the transmit-capacity estimate, with no level whose estimate is 1; `W8_CAP_READ` makes one read of TXLVL, looks
at no other status field and sets the credit to the estimate of the level it read; `W8_CAP` goes on to send exactly when
there is credit. -/
def Obligations.TransmitCapacity : Prop :=
  (txcap 0#2 = 4#3 ∧ txcap 1#2 = 3#3 ∧ txcap 2#2 = 2#3 ∧ txcap 3#2 = 0#3) ∧
  ∀ s : State, s.fault = .noFault → noBlockReset s = true →
    (s.seq = .w8CapRead → step s = .next { s with
      cap := txcap (envLevel s.env s.draws), seq := .w8Cap, stat := { s.stat with txlvl := envLevel s.env s.draws },
      env := envAfterLevel s.env, draws := s.draws + envLevelDraws s.env, resets := later s.resets,
      log := s.log ++ [.levelRead (envLevel s.env s.draws)] }) ∧
    (s.seq = .w8Cap → step s = .next { s with
      seq := if s.cap = 0#3 then .w8CapRead else .w8Send, resets := later s.resets })

/-- R183, R229, R232: in every micro-state that polls, but the two final polls, a fault flag in the snapshot ends the command at
once with that error, Overrun before ModeFault (decision D16): the step makes one snapshot and no other transaction, and
leaves `own`, `cfg`, the tags, the cursors, `cap`, `tries`, every control field (MSTR and EN apart after ModeFault, 93 U9; log 7)
and everything that waits in the environment. -/
def Obligations.PollFaultEndsCommand : Prop :=
  ∀ s : State, s.fault = .noFault → noBlockReset s = true → propagatingPoll s.seq = true →
    ((envStatus s.env s.draws).ovr = true → ∃ t, step s = .next t ∧ t.resp = .overrun ∧ t.seq = .idle ∧
      t.log = s.log ++ [.snapshot (envStatus s.env s.draws)] ∧ t.own = s.own ∧ t.cfg = s.cfg ∧ t.role = s.role ∧
      t.cpol = s.cpol ∧ t.cpha = s.cpha ∧ t.width = s.width ∧ t.wpos = s.wpos ∧ t.rpos = s.rpos ∧ t.cap = s.cap ∧
      t.tries = s.tries ∧ t.ctrl1 = s.ctrl1 ∧ t.ctrl2 = s.ctrl2 ∧ t.stat = envStatus s.env s.draws ∧
      t.env = envAfterStatus s.env) ∧
    ((envStatus s.env s.draws).ovr = false → (envStatus s.env s.draws).modf = true →
      ∃ t m e, step s = .next t ∧ t.resp = .modeFault ∧ t.seq = .idle ∧
      t.log = s.log ++ [.snapshot (envStatus s.env s.draws)] ∧ t.own = s.own ∧ t.cfg = s.cfg ∧ t.role = s.role ∧
      t.cpol = s.cpol ∧ t.cpha = s.cpha ∧ t.width = s.width ∧ t.wpos = s.wpos ∧ t.rpos = s.rpos ∧ t.cap = s.cap ∧
      t.tries = s.tries ∧ t.ctrl1 = { s.ctrl1 with mstr := m, en := e } ∧ t.ctrl2 = s.ctrl2 ∧
      t.stat = envStatus s.env s.draws ∧ t.env = envAfterStatus s.env ∧ t.roleEnableOpen = true)

/-- R166, R233: a micro-state that blocks on a readiness bit polls again, by a real step that made a real status read, as long as
the snapshot shows neither a fault nor readiness. -/
def Obligations.BlockingPollRepeats : Prop :=
  ∀ (s : State) (kind : PollKind), s.fault = .noFault → noBlockReset s = true → blocksOn s.seq = some kind →
    poll kind (envStatus s.env s.draws) = .wouldBlock →
    step s = .next { s with
      stat := envStatus s.env s.draws, env := envAfterStatus s.env, draws := s.draws + envStatusDraws s.env,
      resets := later s.resets,
      log := s.log ++ [.snapshot (envStatus s.env s.draws)] }

/-- R204: the final poll of WR8 and WR16 answers Ok on Ready and on either fault, whose error is ignored. -/
def Obligations.FinalPollIgnoresFaults : Prop :=
  ∀ s : State, s.fault = .noFault → noBlockReset s = true → (s.seq = .w8FinalPoll ∨ s.seq = .w16FinalPoll) →
    poll .send (envStatus s.env s.draws) ≠ .wouldBlock →
    step s = .next { s with
      resp := .ok, seq := .idle,
      stat := envStatus s.env s.draws, env := envAfterStatus s.env, draws := s.draws + envStatusDraws s.env,
      resets := later s.resets,
      log := s.log ++ [.snapshot (envStatus s.env s.draws)] }

/-- R172, R173: the two polls of the main loop of XFER8, neither of which blocks. The read phase polls first and compares the
cursors second: Ready with an element outstanding goes on to store it, Ready with none and Would-Block return to the main
loop, with nothing read. In the fill phase Ready goes on to send, and Would-Block goes to the read phase. -/
def Obligations.ReadPhasePollsFirst : Prop :=
  ∀ s : State, s.fault = .noFault → noBlockReset s = true →
    (envStatus s.env s.draws).ovr = false → (envStatus s.env s.draws).modf = false →
    (s.seq = .x8ReadPoll → step s = .next { s with
      seq := if (envStatus s.env s.draws).rxne = true ∧ s.rpos.toNat < s.wpos.toNat then .x8ReadStore else .x8Main,
      stat := envStatus s.env s.draws, env := envAfterStatus s.env, draws := s.draws + envStatusDraws s.env,
      resets := later s.resets, log := s.log ++ [.snapshot (envStatus s.env s.draws)] }) ∧
    (s.seq = .x8FillPoll → step s = .next { s with
      seq := if (envStatus s.env s.draws).txe = true ∧ (envStatus s.env s.draws).bsy = false then .x8FillSend else .x8ReadPoll,
      stat := envStatus s.env s.draws, env := envAfterStatus s.env, draws := s.draws + envStatusDraws s.env,
      resets := later s.resets, log := s.log ++ [.snapshot (envStatus s.env s.draws)] })

/-- R174, R183, R229: a Would-Block in the drain loop of XFER8 is one more try while `tries < DRAIN_RETRIES`, and always with
DRAIN_RETRIES infinite; otherwise it ends the command with `Incomplete`, at once: the step makes one snapshot and no other
transaction, and leaves `own`, `cfg`, the tags, the cursors, `tries`, every other register, every control field, the moves to
come and everything that waits in the environment. Ready goes on to store the element. -/
def Obligations.DrainLoopIsBounded : Prop :=
  ∀ s : State, s.fault = .noFault → noBlockReset s = true → s.seq = .x8DrainPoll →
    (poll .recv (envStatus s.env s.draws) = .wouldBlock →
      (∀ k, (s.drainRetries = .finite k ∧ s.tries < k) ∨ s.drainRetries = .infinite → step s = .next { s with
        tries := s.tries + 1,
        stat := envStatus s.env s.draws, env := envAfterStatus s.env, draws := s.draws + envStatusDraws s.env,
        resets := later s.resets, log := s.log ++ [.snapshot (envStatus s.env s.draws)] }) ∧
      (∀ k, s.drainRetries = .finite k → k ≤ s.tries →
        ∃ t, step s = .next t ∧ t.seq = .idle ∧ t.resp = .incomplete ∧
        t.log = s.log ++ [.snapshot (envStatus s.env s.draws)] ∧ t.own = s.own ∧ t.cfg = s.cfg ∧ t.role = s.role ∧
        t.cpol = s.cpol ∧ t.cpha = s.cpha ∧ t.width = s.width ∧ t.fin = s.fin ∧ t.freq = s.freq ∧ t.n = s.n ∧
        t.wpos = s.wpos ∧ t.rpos = s.rpos ∧ t.cap = s.cap ∧ t.tries = s.tries ∧ t.save1 = s.save1 ∧ t.save2 = s.save2 ∧
        t.fault = s.fault ∧ t.ctrl1 = s.ctrl1 ∧ t.ctrl2 = s.ctrl2 ∧ t.stat = envStatus s.env s.draws ∧
        t.clkEn = s.clkEn ∧ t.rstLine = s.rstLine ∧ t.fIn = s.fIn ∧ t.env = envAfterStatus s.env ∧
        t.drainRetries = s.drainRetries ∧ t.outside = s.outside)) ∧
    (poll .recv (envStatus s.env s.draws) = .ready → step s = .next { s with
      seq := .x8DrainStore,
      stat := envStatus s.env s.draws, env := envAfterStatus s.env, draws := s.draws + envStatusDraws s.env,
      resets := later s.resets, log := s.log ++ [.snapshot (envStatus s.env s.draws)] })

/-- R175: the final check of XFER8 looks at OVR alone: MODF and the readiness bits do not matter. -/
def Obligations.FinalCheckLooksAtOverrunOnly : Prop :=
  ∀ s : State, s.fault = .noFault → noBlockReset s = true → s.seq = .x8Final →
    ((envStatus s.env s.draws).ovr = true → ∃ t, step s = .next t ∧ t.resp = .overrun ∧ t.seq = .idle ∧
      t.log = s.log ++ [.snapshot (envStatus s.env s.draws)] ∧ t.ctrl1 = s.ctrl1 ∧ t.wpos = s.wpos ∧ t.rpos = s.rpos) ∧
    ((envStatus s.env s.draws).ovr = false → step s = .next { s with
      resp := .ok, seq := .idle,
      stat := envStatus s.env s.draws, env := envAfterStatus s.env, draws := s.draws + envStatusDraws s.env,
      resets := later s.resets,
      log := s.log ++ [.snapshot (envStatus s.env s.draws)] })

/-! ## The transfers (43_transfer, 44_write) -/

/-- R170, R180, R200, R208: acceptance of the four transfer commands, everything each latches and nothing else; an enabled
peripheral is not required (R97). -/
def Obligations.TransfersAccepted : Prop :=
  ∀ (n : Nat) (s : State), ReadyHandle s → n < 2 ^ 32 →
    (s.width = .w8 → exec (.xfer8 n) s = .next { s with
      n := BitVec.ofNat 32 n, wpos := 0#32, rpos := 0#32, tries := 0, resp := .none, seq := .x8Setup }) ∧
    (s.width = .w16 → exec (.xfer16 n) s = .next { s with
      n := BitVec.ofNat 32 n, wpos := 0#32, rpos := 0#32, resp := .none, seq := .x16Setup }) ∧
    (s.width = .w8 → exec (.wr8 n) s = .next { s with
      n := BitVec.ofNat 32 n, wpos := 0#32, cap := 0#3, resp := .none, seq := .w8Setup }) ∧
    (s.width = .w16 → exec (.wr16 n) s = .next { s with
      n := BitVec.ofNat 32 n, wpos := 0#32, resp := .none, seq := .w16Setup })

/-- R176, S5: over the direct loopback ENV-LOOP0 with nothing waiting, XFER8 of any length completes with Ok, sends every
element in order, receives what it sent, and leaves every byte of the buffer with the value it had. The premise `cfg =
Enabled` that R267 and 93 U5 advise is not needed, here and in the next two: ENV-LOOP0 answers as it does whatever `cfg` is.
-/
def Obligations.ByteLoopbackCompletes : Prop :=
  ∀ (n : Nat) (s : State), ReadyHandle s → s.width = .w8 → NoResetToCome s → n < 2 ^ 32 → s.env = .loop0 [] →
    ∃ t k u, exec (.xfer8 n) s = .next t ∧ runSteps k t = .next u ∧ EndedWell .ok u ∧ u.own = s.own ∧ u.cfg = s.cfg ∧
      u.wpos.toNat = n ∧ u.rpos.toNat = n ∧ u.env = .loop0 [] ∧
      u.ctrl1 = { s.ctrl1 with bidimode := false } ∧ u.ctrl2 = s.ctrl2 ∧
      sentValues u.log = sentValues s.log ++ bufferElems .w8 s.mem n ∧
      receivedValues u.log = receivedValues s.log ++ bufferElems .w8 s.mem n ∧
      ∀ a, readByte u.mem a = readByte s.mem a

/-- R182, S5: the same of XFER16. -/
def Obligations.HalfwordLoopbackCompletes : Prop :=
  ∀ (n : Nat) (s : State), ReadyHandle s → s.width = .w16 → NoResetToCome s → n < 2 ^ 32 → s.env = .loop0 [] →
    ∃ t k u, exec (.xfer16 n) s = .next t ∧ runSteps k t = .next u ∧ EndedWell .ok u ∧ u.own = s.own ∧ u.cfg = s.cfg ∧
      u.wpos.toNat = n ∧ u.rpos.toNat = n ∧ u.env = .loop0 [] ∧
      u.ctrl1 = { s.ctrl1 with bidimode := false } ∧ u.ctrl2 = s.ctrl2 ∧
      sentValues u.log = sentValues s.log ++ bufferElems .w16 s.mem n ∧
      receivedValues u.log = receivedValues s.log ++ bufferElems .w16 s.mem n ∧
      ∀ a, readByte u.mem a = readByte s.mem a

/-- R205, R209: over ENV-LOOP0 the send-only commands of any length complete with Ok, send every element in order, read no
data register, leave BIDIMODE and BIDIOE 1 and the memory untouched. -/
def Obligations.SendOnlyCompletes : Prop :=
  ∀ (n : Nat) (s : State), ReadyHandle s → NoResetToCome s → n < 2 ^ 32 → s.env = .loop0 [] →
    (s.width = .w8 → ∃ t k u, exec (.wr8 n) s = .next t ∧ runSteps k t = .next u ∧ EndedWell .ok u ∧ u.own = s.own ∧
      u.cfg = s.cfg ∧ u.wpos.toNat = n ∧ u.ctrl1 = { s.ctrl1 with bidimode := true, bidioe := true } ∧ u.ctrl2 = s.ctrl2 ∧
      sentValues u.log = sentValues s.log ++ bufferElems .w8 s.mem n ∧ receivedValues u.log = receivedValues s.log ∧
      u.mem = s.mem) ∧
    (s.width = .w16 → ∃ t k u, exec (.wr16 n) s = .next t ∧ runSteps k t = .next u ∧ EndedWell .ok u ∧ u.own = s.own ∧
      u.cfg = s.cfg ∧ u.wpos.toNat = n ∧ u.ctrl1 = { s.ctrl1 with bidimode := true, bidioe := true } ∧ u.ctrl2 = s.ctrl2 ∧
      sentValues u.log = sentValues s.log ++ bufferElems .w16 s.mem n ∧ receivedValues u.log = receivedValues s.log ∧
      u.mem = s.mem)

/-- R176: whatever the environment does, and with no further move of the host to come (`outside = []`), an XFER8 that answers
Ok has made exactly N data writes carrying the original elements in order and exactly N data reads, and element `i` holds the
value the `i`-th of them returned; the cursors are at N and the last snapshot showed OVR = 0. (That each read follows a poll
that returned Ready is TransferLogDiscipline.) -/
def Obligations.ByteExchangeGuarantee : Prop :=
  ∀ (s t : State) (k : Nat), s.seq = .x8Setup → s.fault = .noFault → s.resp = .none → s.wpos = 0#32 → s.rpos = 0#32 →
    s.outside = [] → runSteps k s = .next t → t.seq = .idle → t.resp = .ok →
    t.wpos = s.n ∧ t.rpos = s.n ∧ t.stat.ovr = false ∧
      sentValues t.log = sentValues s.log ++ bufferElems .w8 s.mem s.n.toNat ∧
      receivedValues t.log = receivedValues s.log ++ bufferElems .w8 t.mem s.n.toNat

/-- R182: whatever the environment does, and with no further move of the host to come (`outside = []`), an XFER16 that answers
Ok has done the same with 16-bit elements. (That writes and reads strictly alternate is TransferLogDiscipline.) -/
def Obligations.HalfwordExchangeGuarantee : Prop :=
  ∀ (s t : State) (k : Nat), s.seq = .x16Setup → s.fault = .noFault → s.resp = .none → s.wpos = 0#32 → s.rpos = 0#32 →
    s.outside = [] → runSteps k s = .next t → t.seq = .idle → t.resp = .ok →
    t.wpos = s.n ∧ t.rpos = s.n ∧
      sentValues t.log = sentValues s.log ++ bufferElems .w16 s.mem s.n.toNat ∧
      receivedValues t.log = receivedValues s.log ++ bufferElems .w16 t.mem s.n.toNat

/-- R205, R209: whatever the environment does, and with no further move of the host (`outside = []`) and no block reset to come,
a WR8 or WR16 that answers Ok has sent exactly its N elements in order, and one that answers an error has sent the first
`wpos` of them; no data register was read, the buffer is unchanged, and BIDIMODE = BIDIOE = 1. -/
def Obligations.SendOnlyGuarantee : Prop :=
  ∀ (w : Width) (s t : State) (k : Nat), s.seq = (match w with | .w8 => .w8Setup | .w16 => .w16Setup) →
    s.fault = .noFault → s.resp = .none → s.wpos = 0#32 → s.outside = [] → NoResetToCome s →
    runSteps k s = .next t → t.seq = .idle →
    t.mem = s.mem ∧ receivedValues t.log = receivedValues s.log ∧ t.ctrl1.bidimode = true ∧ t.ctrl1.bidioe = true ∧
      sentValues t.log = sentValues s.log ++ bufferElems w s.mem t.wpos.toNat ∧ t.wpos.toNat ≤ s.n.toNat ∧
      (t.resp = .ok → t.wpos = s.n) ∧ (t.resp = .ok ∨ t.resp = .overrun ∨ t.resp = .modeFault)

/-- R176, R182, R205, R281: in every run of XFER8, XFER16 or WR8, finished or not, whatever the environment does and with no
further move of the host to come (`outside = []`): each `DataRead` follows a poll that returned Ready with no other register
transaction between them; in XFER16 `DataWrite` and `DataRead` strictly alternate, beginning with a write; and in WR8, which
starts with no credit (R200), no `DataWrite` comes before the first read of TXLVL and between two of them at most as many as the
estimate of the level read, so at most 4. -/
def Obligations.TransferLogDiscipline : Prop :=
  ∀ (s t : State) (k : Nat), (s.seq = .x8Setup ∨ s.seq = .x16Setup ∨ (s.seq = .w8Setup ∧ s.cap = 0#3)) →
    s.fault = .noFault → s.outside = [] → runSteps k s = .next t →
    ∃ new, t.log = s.log ++ new ∧ readsFollowPolls false new = true ∧ (s.seq = .x16Setup → alternates false new = true) ∧
      (s.seq = .w8Setup →
        writesWithin (fun c => (txcap c).toNat) 0 new = true ∧ writesWithin (fun _ => 4) 0 new = true)

/-- R172, R180, R203, R208, R69: the step that sends an element: one `MemRead` and one `DataWrite` of its value, the write cursor up
by one, in WR8 one credit less; the buffer and everything else unchanged. -/
def Obligations.SendStep : Prop :=
  ∀ s : State, s.fault = .noFault → noBlockReset s = true → s.wpos.toNat < s.n.toNat →
    (s.seq = .x8FillSend → step s = .next { s with
      wpos := s.wpos + 1#32, resets := later s.resets, seq := .x8Fill,
      env := envAfterWrite s.ctrl1.bidimode (readElem .w8 s.mem s.wpos.toNat) s.env,
      log := s.log ++ [.memRead .w8 s.wpos.toNat (readElem .w8 s.mem s.wpos.toNat),
        .dataWrite .w8 (readElem .w8 s.mem s.wpos.toNat)] }) ∧
    (s.seq = .x16Send → step s = .next { s with
      wpos := s.wpos + 1#32, resets := later s.resets, seq := .x16RecvPoll,
      env := envAfterWrite s.ctrl1.bidimode (readElem .w16 s.mem s.wpos.toNat) s.env,
      log := s.log ++ [.memRead .w16 s.wpos.toNat (readElem .w16 s.mem s.wpos.toNat),
        .dataWrite .w16 (readElem .w16 s.mem s.wpos.toNat)] }) ∧
    (s.seq = .w8Send → s.cap ≠ 0#3 → step s = .next { s with
      wpos := s.wpos + 1#32, resets := later s.resets, cap := s.cap - 1#3, seq := .w8Test,
      env := envAfterWrite s.ctrl1.bidimode (readElem .w8 s.mem s.wpos.toNat) s.env,
      log := s.log ++ [.memRead .w8 s.wpos.toNat (readElem .w8 s.mem s.wpos.toNat),
        .dataWrite .w8 (readElem .w8 s.mem s.wpos.toNat)] }) ∧
    (s.seq = .w16Send → step s = .next { s with
      wpos := s.wpos + 1#32, resets := later s.resets, seq := .w16Test,
      env := envAfterWrite s.ctrl1.bidimode (readElem .w16 s.mem s.wpos.toNat) s.env,
      log := s.log ++ [.memRead .w16 s.wpos.toNat (readElem .w16 s.mem s.wpos.toNat),
        .dataWrite .w16 (readElem .w16 s.mem s.wpos.toNat)] })

/-- R173, R174, R180, R69: the step that stores an element: the value `DataRead` returned is in element `rpos`, the read
cursor is up by one, the micro-state that follows is X8_READ_POLL, X8_DRAIN or X16_TEST, every byte outside that element reads
as before, and no register but `tries` (in the drain loop), no control field and no status field changes. -/
def Obligations.StoreStep : Prop :=
  ∀ (w : Width) (s : State), s.fault = .noFault → noBlockReset s = true → s.rpos.toNat < s.n.toNat →
    (s.seq = .x8ReadStore ∧ w = .w8 ∨ s.seq = .x8DrainStore ∧ w = .w8 ∨ s.seq = .x16Store ∧ w = .w16) →
    ∃ t, step s = .next t ∧ t.rpos.toNat = s.rpos.toNat + 1 ∧ t.wpos = s.wpos ∧ t.n = s.n ∧ t.resp = s.resp ∧
      readElem w t.mem s.rpos.toNat = dataValue w s ∧
      (∀ a, a < elemAddr w s.rpos.toNat ∨ elemAddr w (s.rpos.toNat + 1) ≤ a → readByte t.mem a = readByte s.mem a) ∧
      t.log = s.log ++ [.dataRead w (dataValue w s), .memWrite w s.rpos.toNat (dataValue w s)] ∧
      t.env = envAfterData s.env ∧ t.ctrl1 = s.ctrl1 ∧ t.ctrl2 = s.ctrl2 ∧ t.stat = s.stat ∧ t.own = s.own ∧
      t.cfg = s.cfg ∧ t.role = s.role ∧ t.cpol = s.cpol ∧ t.cpha = s.cpha ∧ t.width = s.width ∧ t.fin = s.fin ∧
      t.freq = s.freq ∧ t.cap = s.cap ∧ t.save1 = s.save1 ∧ t.save2 = s.save2 ∧ t.fault = s.fault ∧
      t.clkEn = s.clkEn ∧ t.rstLine = s.rstLine ∧ t.fIn = s.fIn ∧ t.drainRetries = s.drainRetries ∧ t.outside = s.outside ∧
      (s.seq ≠ .x8DrainStore → t.tries = s.tries) ∧ (s.seq = .x8DrainStore → t.tries = 0) ∧
      (s.seq = .x8ReadStore → t.seq = .x8ReadPoll) ∧ (s.seq = .x8DrainStore → t.seq = .x8Drain) ∧
      (s.seq = .x16Store → t.seq = .x16Test)

/-- Frame of the transfers (R21, R30, R69, R70, R147): a step of one that answers a next state leaves `own`, `cfg`, the tags,
`fin`, `freq`, `n`, the saved groups, group 2, the clock gate and the reset line; group 1 but for the direction fields and,
after ModeFault, MSTR and EN (93 U9; log 7); and every byte of memory but those of the stored element or, when the command ends
with an error, the element range that R231 leaves unspecified; a step that answers Ok leaves the whole memory. -/
def Obligations.TransferFrame : Prop :=
  ∀ s t : State, inTransfer s.seq = true → noBlockReset s = true → step s = .next t →
    t.own = s.own ∧ t.cfg = s.cfg ∧ t.role = s.role ∧ t.cpol = s.cpol ∧ t.cpha = s.cpha ∧ t.width = s.width ∧
    t.fin = s.fin ∧ t.freq = s.freq ∧ t.n = s.n ∧ t.save1 = s.save1 ∧ t.save2 = s.save2 ∧ t.ctrl2 = s.ctrl2 ∧
    t.clkEn = s.clkEn ∧ t.rstLine = s.rstLine ∧ t.fault = s.fault ∧
    (s.seq = .x8Setup ∨ s.seq = .x16Setup → t.ctrl1 = { s.ctrl1 with bidimode := false }) ∧
    (s.seq = .w8Setup ∨ s.seq = .w16Setup → t.ctrl1 = { s.ctrl1 with bidimode := true, bidioe := true }) ∧
    (s.seq ≠ .x8Setup → s.seq ≠ .x16Setup → s.seq ≠ .w8Setup → s.seq ≠ .w16Setup →
      t.ctrl1 = { s.ctrl1 with mstr := t.ctrl1.mstr, en := t.ctrl1.en } ∧ (t.resp ≠ .modeFault → t.ctrl1 = s.ctrl1)) ∧
    (inWrite s.seq = true → t.mem = s.mem) ∧
    (t.seq ≠ .idle → (s.seq = .x8ReadStore ∨ s.seq = .x8DrainStore) →
      ∀ a, a < elemAddr .w8 s.rpos.toNat ∨ elemAddr .w8 (s.rpos.toNat + 1) ≤ a → readByte t.mem a = readByte s.mem a) ∧
    (t.seq ≠ .idle → s.seq = .x16Store →
      ∀ a, a < elemAddr .w16 s.rpos.toNat ∨ elemAddr .w16 (s.rpos.toNat + 1) ≤ a → readByte t.mem a = readByte s.mem a) ∧
    (t.seq ≠ .idle → s.seq ≠ .x8ReadStore → s.seq ≠ .x8DrainStore → s.seq ≠ .x16Store → t.mem = s.mem) ∧
    (t.seq = .idle → t.resp = .ok → t.mem = s.mem) ∧
    (t.seq = .idle → t.resp ≠ .ok → s.seq ≠ .x8Final →
      ∀ a, a < elemAddr (if inXfer8 s.seq then .w8 else .w16) s.rpos.toNat ∨
        elemAddr (if inXfer8 s.seq then .w8 else .w16) s.n.toNat ≤ a → readByte t.mem a = readByte s.mem a) ∧
    (t.seq = .idle → t.resp ≠ .ok → s.seq = .x8Final → ∀ a, elemAddr .w8 s.n.toNat ≤ a → readByte t.mem a = readByte s.mem a)

/-! ## The machine as a whole -/

/-- R24, R103: one step makes at most one transaction on the register port or the reset-and-clock port and at most one on the
buffer port, and never takes an entry back; a `RegWrite` names fields of one register only (decision D10). -/
def Obligations.OneTransactionPerPort : Prop :=
  ∀ s t : State, step s = .next t →
    ∃ new, t.log = s.log ++ new ∧ (new.filter (fun a => !isBufferAccess a)).length ≤ 1 ∧
      (new.filter isBufferAccess).length ≤ 1 ∧
      ∀ fs, .regWrite fs ∈ new → ∃ r, ∀ f ∈ fs, fieldRegister f = r

/-- R20, R25 to R27, R33, R34, R45, R47, R62, R131, R226, R263 and the canonical form of the memory: every step keeps the invariant of the
machine. -/
def Obligations.StepKeepsInvariant : Prop := ∀ s t : State, Inv s → step s = .next t → Inv t

/-- R44: the state after reset meets the invariant. -/
def Obligations.ResetMeetsInvariant : Prop := Inv State.reset

/-- R44: what SPIC's own reset leaves. -/
def Obligations.ResetState : Prop :=
  State.reset.own = .free ∧ State.reset.cfg = .reset ∧ State.reset.seq = .idle ∧ State.reset.resp = .none ∧
    State.reset.fault = .noFault

/-- R25: along every run from a state that meets the invariant, `rpos ≤ wpos ≤ n` holds whenever XFER8 or XFER16 runs, and in
XFER16 `wpos ≤ rpos + 1`. -/
def Obligations.CursorsStayOrdered : Prop :=
  ∀ (s t : State) (k : Nat), Inv s → runSteps k s = .next t →
    (inXfer8 t.seq = true ∨ inXfer16 t.seq = true → t.rpos.toNat ≤ t.wpos.toNat ∧ t.wpos.toNat ≤ t.n.toNat) ∧
    (inXfer16 t.seq = true → t.wpos.toNat ≤ t.rpos.toNat + 1) ∧
    (inWrite t.seq = true → t.wpos.toNat ≤ t.n.toNat)

/-- R33, R34: along every run from a state that meets the invariant, in Idle with a live handle DSIZE and RXTH match the width,
and EN says whether `cfg` is Enabled unless a ModeFault response leaves it unspecified. -/
def Obligations.FieldsMatchHandle : Prop :=
  ∀ (s t : State) (k : Nat), Inv s → runSteps k s = .next t → t.seq = .idle → t.own = .bound →
    t.ctrl2.dsize = ds t.width ∧ t.ctrl2.rxth = th t.width ∧
      (t.roleEnableOpen = false → (t.cfg = .enabled ↔ t.ctrl1.en = true))

/-- R60, R226: from a state that meets the invariant the machine stops with one fault only, the sticky sequencer fault: no run
accesses an element at or beyond N, or takes a credit below 0. -/
def Obligations.OnlyTheSequencerFaultStops : Prop :=
  ∀ (s : State) (f : Fault), Inv s → step s = .fault f → f = .divisorUndefined ∧ s.fault = .divisorUndefined ∧ s.seq = .cCtrl

/-- Progress (R24, R96): from a state without fault that meets the invariant a step answers a next state, unless the host breaks
the ownership contract (93 U4). -/
def Obligations.StepAlwaysAnswers : Prop :=
  ∀ s : State, Inv s → s.fault = .noFault → (∃ t, step s = .next t) ∨
    (s.seq = .idle ∧ s.own = .bound ∧ ∃ fs rest, s.outside = .fieldWrite fs :: rest)

/-- R226, R260: a faulted SPIC has no step while no block reset comes, and the next block reset to come, which touches neither
the peripheral nor the buffer, clears the fault and frees the handle. That it comes at once, as no other step can be made
before it, is the model's form of it (log 8). -/
def Obligations.FaultIsSticky : Prop :=
  ∀ s : State, s.fault = .divisorUndefined →
    (NoResetToCome s → step s = .fault .divisorUndefined) ∧
    ∀ k rest, s.resets = k :: rest → ∃ t, step s = .next t ∧ t.fault = .noFault ∧ t.own = .free ∧ t.cfg = .reset ∧
      t.seq = .idle ∧ t.resp = .none ∧ t.ctrl1 = s.ctrl1 ∧ t.ctrl2 = s.ctrl2 ∧ t.stat = s.stat ∧ t.mem = s.mem ∧
      t.env = s.env ∧ t.clkEn = s.clkEn ∧ t.fIn = s.fIn ∧ t.outside = s.outside ∧ t.resets = rest ∧ t.log = s.log

/-- R260, R276, R226, R233: the block reset can come in every state, a command already polling and the faulted state among them,
and ends a stuck command. When it is due, the step gives SPIC's registers their values after reset and leaves the peripheral,
the collaborator, the buffer and the environment. One that is to come after more steps changes none of those before it. In
every place where R233 lets a command stay for ever, it does stay as long as the environment keeps the condition, with no
step that leaves it, and the block reset is the way out after any number of steps. That `resets` says when it comes is the
model's choice (log 8). -/
def Obligations.BlockResetComesAnyTime : Prop :=
  (∀ s : State, resetDue s = true → ∃ t, step s = .next t ∧ t.own = .free ∧ t.cfg = .reset ∧ t.seq = .idle ∧ t.resp = .none ∧
    t.fault = .noFault ∧ t.ctrl1 = s.ctrl1 ∧ t.ctrl2 = s.ctrl2 ∧ t.stat = s.stat ∧ t.clkEn = s.clkEn ∧
    t.rstLine = s.rstLine ∧ t.fIn = s.fIn ∧ t.mem = s.mem ∧ t.env = s.env ∧ t.drainRetries = s.drainRetries ∧
    t.outside = s.outside ∧ t.resets = s.resets.tail ∧ t.log = s.log) ∧
  (∀ (s t : State) (k : Nat) (rest : List Nat), s.fault = .noFault → step { s with resets := [] } = .next t →
    step { s with resets := (k + 1) :: rest } = .next { t with resets := k :: rest }) ∧
  ∀ (s : State) (k : Nat), s.fault = .noFault → stuckFor k s →
    (NoResetToCome s ∨ (∃ rest, s.resets = k :: rest) →
      ∃ t, runSteps k s = .next t ∧ t.seq ∈ stuckLoop s.seq ∧ t.own = s.own ∧ t.resp = s.resp ∧ t.fault = .noFault) ∧
    ∀ rest, s.resets = k :: rest →
      ∃ u, runSteps (k + 1) s = .next u ∧ u.own = .free ∧ u.seq = .idle ∧ u.resp = .none ∧ u.resets = rest
end

