-- ==== Sys2Proof/Laws/Decode.lean ====
section
/-! SUPPORT. The fields of a packed command word: each field of 30_encoding R90 read back from `packCommand`. -/

namespace Sys2Proof

theorem toNat_append_add {a b : Nat} (x : BitVec a) (y : BitVec b) : (x ++ y).toNat = x.toNat * 2 ^ b + y.toNat := by
  rw [BitVec.toNat_append, Nat.shiftLeft_eq, Nat.mul_comm, Nat.two_pow_add_eq_or_of_lt y.isLt]

/-- A command word as a number (30_encoding R90). -/
theorem packCommand_toNat (o : BitVec 8) (w p h : Bool) (n : Nat) : (packCommand o w p h n).toNat =
    o.toNat * 2 ^ 56 + w.toNat * 2 ^ 34 + p.toNat * 2 ^ 33 + h.toNat * 2 ^ 32 + n % 2 ^ 32 := by
  have e : (packCommand o w p h n).toNat = BitVec.toNat (w := 8 + 21 + 1 + 1 + 1 + 32)
      (o ++ 0#21 ++ BitVec.ofBool w ++ BitVec.ofBool p ++ BitVec.ofBool h ++ BitVec.ofNat 32 n) := rfl
  rw [e]
  simp only [toNat_append_add, BitVec.toNat_ofNat, BitVec.toNat_ofBool]
  omega

@[simp] theorem opcOf_packCommand (o : BitVec 8) (w p h : Bool) (n : Nat) : opcOf (packCommand o w p h n) = o := by
  apply BitVec.eq_of_toNat_eq
  have := o.isLt
  have := w.toNat_lt
  have := p.toNat_lt
  have := h.toNat_lt
  simp only [opcOf, BitVec.extractLsb'_toNat, packCommand_toNat, Nat.shiftRight_eq_div_pow]
  omega

@[simp] theorem rsvOf_packCommand (o : BitVec 8) (w p h : Bool) (n : Nat) : rsvOf (packCommand o w p h n) = 0#21 := by
  apply BitVec.eq_of_toNat_eq
  have := o.isLt
  have := w.toNat_lt
  have := p.toNat_lt
  have := h.toNat_lt
  simp only [rsvOf, BitVec.extractLsb'_toNat, packCommand_toNat, Nat.shiftRight_eq_div_pow, BitVec.toNat_ofNat]
  omega

@[simp] theorem tagsOf_packCommand (o : BitVec 8) (n : Nat) : tagsOf (packCommand o false false false n) = 0#3 := by
  apply BitVec.eq_of_toNat_eq
  have := o.isLt
  simp only [tagsOf, BitVec.extractLsb'_toNat, packCommand_toNat, Nat.shiftRight_eq_div_pow, BitVec.toNat_ofNat,
    Bool.toNat_false]
  omega

@[simp] theorem argOf_packCommand (o : BitVec 8) (w p h : Bool) (n : Nat) :
    argOf (packCommand o w p h n) = BitVec.ofNat 32 n := by
  apply BitVec.eq_of_toNat_eq
  have := o.isLt
  have := w.toNat_lt
  have := p.toNat_lt
  have := h.toNat_lt
  simp only [argOf, BitVec.extractLsb'_toNat, packCommand_toNat, Nat.shiftRight_eq_div_pow, BitVec.toNat_ofNat]
  omega

@[simp] theorem wOf_packCommand (o : BitVec 8) (w p h : Bool) (n : Nat) : wOf (packCommand o w p h n) = w := by
  have := o.isLt
  simp only [wOf, BitVec.getLsbD, packCommand_toNat, Nat.testBit, Nat.shiftRight_eq_div_pow]
  cases w <;> cases p <;> cases h <;> simp <;> omega

@[simp] theorem cpolOf_packCommand (o : BitVec 8) (w p h : Bool) (n : Nat) : cpolOf (packCommand o w p h n) = p := by
  have := o.isLt
  simp only [cpolOf, BitVec.getLsbD, packCommand_toNat, Nat.testBit, Nat.shiftRight_eq_div_pow]
  cases w <;> cases p <;> cases h <;> simp <;> omega

@[simp] theorem cphaOf_packCommand (o : BitVec 8) (w p h : Bool) (n : Nat) : cphaOf (packCommand o w p h n) = h := by
  have := o.isLt
  simp only [cphaOf, BitVec.getLsbD, packCommand_toNat, Nat.testBit, Nat.shiftRight_eq_div_pow]
  cases w <;> cases p <;> cases h <;> simp <;> omega

@[simp] theorem wtag_wbit (w : Width) : wtag (wbit w) = w := by cases w <;> rfl

@[simp] theorem wbit_wtag (b : Bool) : wbit (wtag b) = b := by cases b <;> rfl

/-- A mask that covers bits 63 down to `k` keeps exactly those bits. -/
theorem and_highMask (c : CmdWord) (k : Nat) : c &&& (BitVec.allOnes 64 <<< k) = c >>> k <<< k :=
  BitVec.shiftLeft_ushiftRight.symm

end Sys2Proof
end

