-- ==== Sys2Proof/Laws/State.lean ====
section
/-! SUPPORT. What each shared operation leaves in each field of State: one lemma per field per update, so that no later
proof unfolds a record update. -/

namespace Sys2Proof.Machine

/-! ## note -/

@[simp] theorem note_own (a : Access) (s : State) : (note a s).own = s.own := rfl
@[simp] theorem note_cfg (a : Access) (s : State) : (note a s).cfg = s.cfg := rfl
@[simp] theorem note_role (a : Access) (s : State) : (note a s).role = s.role := rfl
@[simp] theorem note_cpol (a : Access) (s : State) : (note a s).cpol = s.cpol := rfl
@[simp] theorem note_cpha (a : Access) (s : State) : (note a s).cpha = s.cpha := rfl
@[simp] theorem note_width (a : Access) (s : State) : (note a s).width = s.width := rfl
@[simp] theorem note_fin (a : Access) (s : State) : (note a s).fin = s.fin := rfl
@[simp] theorem note_freq (a : Access) (s : State) : (note a s).freq = s.freq := rfl
@[simp] theorem note_n (a : Access) (s : State) : (note a s).n = s.n := rfl
@[simp] theorem note_wpos (a : Access) (s : State) : (note a s).wpos = s.wpos := rfl
@[simp] theorem note_rpos (a : Access) (s : State) : (note a s).rpos = s.rpos := rfl
@[simp] theorem note_cap (a : Access) (s : State) : (note a s).cap = s.cap := rfl
@[simp] theorem note_tries (a : Access) (s : State) : (note a s).tries = s.tries := rfl
@[simp] theorem note_save1 (a : Access) (s : State) : (note a s).save1 = s.save1 := rfl
@[simp] theorem note_save2 (a : Access) (s : State) : (note a s).save2 = s.save2 := rfl
@[simp] theorem note_resp (a : Access) (s : State) : (note a s).resp = s.resp := rfl
@[simp] theorem note_fault (a : Access) (s : State) : (note a s).fault = s.fault := rfl
@[simp] theorem note_seq (a : Access) (s : State) : (note a s).seq = s.seq := rfl
@[simp] theorem note_ctrl1 (a : Access) (s : State) : (note a s).ctrl1 = s.ctrl1 := rfl
@[simp] theorem note_ctrl2 (a : Access) (s : State) : (note a s).ctrl2 = s.ctrl2 := rfl
@[simp] theorem note_stat (a : Access) (s : State) : (note a s).stat = s.stat := rfl
@[simp] theorem note_clkEn (a : Access) (s : State) : (note a s).clkEn = s.clkEn := rfl
@[simp] theorem note_rstLine (a : Access) (s : State) : (note a s).rstLine = s.rstLine := rfl
@[simp] theorem note_fIn (a : Access) (s : State) : (note a s).fIn = s.fIn := rfl
@[simp] theorem note_mem (a : Access) (s : State) : (note a s).mem = s.mem := rfl
@[simp] theorem note_drainRetries (a : Access) (s : State) : (note a s).drainRetries = s.drainRetries := rfl
@[simp] theorem note_env (a : Access) (s : State) : (note a s).env = s.env := rfl
@[simp] theorem note_draws (a : Access) (s : State) : (note a s).draws = s.draws := rfl
@[simp] theorem note_roleEnableOpen (a : Access) (s : State) : (note a s).roleEnableOpen = s.roleEnableOpen := rfl
@[simp] theorem note_outside (a : Access) (s : State) : (note a s).outside = s.outside := rfl
@[simp] theorem note_resets (a : Access) (s : State) : (note a s).resets = s.resets := rfl
@[simp] theorem note_log (a : Access) (s : State) : (note a s).log = s.log ++ [a] := rfl

/-! ## setFields -/

@[simp] theorem setFields_own (fs : List FieldVal) (s : State) : (setFields fs s).own = s.own := rfl
@[simp] theorem setFields_cfg (fs : List FieldVal) (s : State) : (setFields fs s).cfg = s.cfg := rfl
@[simp] theorem setFields_role (fs : List FieldVal) (s : State) : (setFields fs s).role = s.role := rfl
@[simp] theorem setFields_cpol (fs : List FieldVal) (s : State) : (setFields fs s).cpol = s.cpol := rfl
@[simp] theorem setFields_cpha (fs : List FieldVal) (s : State) : (setFields fs s).cpha = s.cpha := rfl
@[simp] theorem setFields_width (fs : List FieldVal) (s : State) : (setFields fs s).width = s.width := rfl
@[simp] theorem setFields_fin (fs : List FieldVal) (s : State) : (setFields fs s).fin = s.fin := rfl
@[simp] theorem setFields_freq (fs : List FieldVal) (s : State) : (setFields fs s).freq = s.freq := rfl
@[simp] theorem setFields_n (fs : List FieldVal) (s : State) : (setFields fs s).n = s.n := rfl
@[simp] theorem setFields_wpos (fs : List FieldVal) (s : State) : (setFields fs s).wpos = s.wpos := rfl
@[simp] theorem setFields_rpos (fs : List FieldVal) (s : State) : (setFields fs s).rpos = s.rpos := rfl
@[simp] theorem setFields_cap (fs : List FieldVal) (s : State) : (setFields fs s).cap = s.cap := rfl
@[simp] theorem setFields_tries (fs : List FieldVal) (s : State) : (setFields fs s).tries = s.tries := rfl
@[simp] theorem setFields_save1 (fs : List FieldVal) (s : State) : (setFields fs s).save1 = s.save1 := rfl
@[simp] theorem setFields_save2 (fs : List FieldVal) (s : State) : (setFields fs s).save2 = s.save2 := rfl
@[simp] theorem setFields_resp (fs : List FieldVal) (s : State) : (setFields fs s).resp = s.resp := rfl
@[simp] theorem setFields_fault (fs : List FieldVal) (s : State) : (setFields fs s).fault = s.fault := rfl
@[simp] theorem setFields_seq (fs : List FieldVal) (s : State) : (setFields fs s).seq = s.seq := rfl
@[simp] theorem setFields_ctrl1 (fs : List FieldVal) (s : State) : (setFields fs s).ctrl1 = ctrl1AfterWrite fs s := rfl
@[simp] theorem setFields_ctrl2 (fs : List FieldVal) (s : State) :
    (setFields fs s).ctrl2 = fs.foldl applyCtrl2 s.ctrl2 := rfl
@[simp] theorem setFields_stat (fs : List FieldVal) (s : State) : (setFields fs s).stat = s.stat := rfl
@[simp] theorem setFields_clkEn (fs : List FieldVal) (s : State) : (setFields fs s).clkEn = s.clkEn := rfl
@[simp] theorem setFields_rstLine (fs : List FieldVal) (s : State) : (setFields fs s).rstLine = s.rstLine := rfl
@[simp] theorem setFields_fIn (fs : List FieldVal) (s : State) : (setFields fs s).fIn = s.fIn := rfl
@[simp] theorem setFields_mem (fs : List FieldVal) (s : State) : (setFields fs s).mem = s.mem := rfl
@[simp] theorem setFields_drainRetries (fs : List FieldVal) (s : State) :
    (setFields fs s).drainRetries = s.drainRetries := rfl
@[simp] theorem setFields_env (fs : List FieldVal) (s : State) : (setFields fs s).env = s.env := rfl
@[simp] theorem setFields_draws (fs : List FieldVal) (s : State) : (setFields fs s).draws = s.draws + writeDraws fs s := rfl
@[simp] theorem setFields_roleEnableOpen (fs : List FieldVal) (s : State) :
    (setFields fs s).roleEnableOpen = s.roleEnableOpen := rfl
@[simp] theorem setFields_outside (fs : List FieldVal) (s : State) : (setFields fs s).outside = s.outside := rfl
@[simp] theorem setFields_resets (fs : List FieldVal) (s : State) : (setFields fs s).resets = s.resets := rfl
@[simp] theorem setFields_log (fs : List FieldVal) (s : State) : (setFields fs s).log = s.log := rfl

/-! ## regWrite -/

@[simp] theorem regWrite_own (fs : List FieldVal) (s : State) : (regWrite fs s).own = s.own := rfl
@[simp] theorem regWrite_cfg (fs : List FieldVal) (s : State) : (regWrite fs s).cfg = s.cfg := rfl
@[simp] theorem regWrite_role (fs : List FieldVal) (s : State) : (regWrite fs s).role = s.role := rfl
@[simp] theorem regWrite_cpol (fs : List FieldVal) (s : State) : (regWrite fs s).cpol = s.cpol := rfl
@[simp] theorem regWrite_cpha (fs : List FieldVal) (s : State) : (regWrite fs s).cpha = s.cpha := rfl
@[simp] theorem regWrite_width (fs : List FieldVal) (s : State) : (regWrite fs s).width = s.width := rfl
@[simp] theorem regWrite_fin (fs : List FieldVal) (s : State) : (regWrite fs s).fin = s.fin := rfl
@[simp] theorem regWrite_freq (fs : List FieldVal) (s : State) : (regWrite fs s).freq = s.freq := rfl
@[simp] theorem regWrite_n (fs : List FieldVal) (s : State) : (regWrite fs s).n = s.n := rfl
@[simp] theorem regWrite_wpos (fs : List FieldVal) (s : State) : (regWrite fs s).wpos = s.wpos := rfl
@[simp] theorem regWrite_rpos (fs : List FieldVal) (s : State) : (regWrite fs s).rpos = s.rpos := rfl
@[simp] theorem regWrite_cap (fs : List FieldVal) (s : State) : (regWrite fs s).cap = s.cap := rfl
@[simp] theorem regWrite_tries (fs : List FieldVal) (s : State) : (regWrite fs s).tries = s.tries := rfl
@[simp] theorem regWrite_save1 (fs : List FieldVal) (s : State) : (regWrite fs s).save1 = s.save1 := rfl
@[simp] theorem regWrite_save2 (fs : List FieldVal) (s : State) : (regWrite fs s).save2 = s.save2 := rfl
@[simp] theorem regWrite_resp (fs : List FieldVal) (s : State) : (regWrite fs s).resp = s.resp := rfl
@[simp] theorem regWrite_fault (fs : List FieldVal) (s : State) : (regWrite fs s).fault = s.fault := rfl
@[simp] theorem regWrite_seq (fs : List FieldVal) (s : State) : (regWrite fs s).seq = s.seq := rfl
@[simp] theorem regWrite_ctrl1 (fs : List FieldVal) (s : State) : (regWrite fs s).ctrl1 = ctrl1AfterWrite fs s := rfl
@[simp] theorem regWrite_ctrl2 (fs : List FieldVal) (s : State) : (regWrite fs s).ctrl2 = fs.foldl applyCtrl2 s.ctrl2 := rfl
@[simp] theorem regWrite_stat (fs : List FieldVal) (s : State) : (regWrite fs s).stat = s.stat := rfl
@[simp] theorem regWrite_clkEn (fs : List FieldVal) (s : State) : (regWrite fs s).clkEn = s.clkEn := rfl
@[simp] theorem regWrite_rstLine (fs : List FieldVal) (s : State) : (regWrite fs s).rstLine = s.rstLine := rfl
@[simp] theorem regWrite_fIn (fs : List FieldVal) (s : State) : (regWrite fs s).fIn = s.fIn := rfl
@[simp] theorem regWrite_mem (fs : List FieldVal) (s : State) : (regWrite fs s).mem = s.mem := rfl
@[simp] theorem regWrite_drainRetries (fs : List FieldVal) (s : State) : (regWrite fs s).drainRetries = s.drainRetries := rfl
@[simp] theorem regWrite_env (fs : List FieldVal) (s : State) : (regWrite fs s).env = s.env := rfl
@[simp] theorem regWrite_draws (fs : List FieldVal) (s : State) : (regWrite fs s).draws = s.draws + writeDraws fs s := rfl
@[simp] theorem regWrite_roleEnableOpen (fs : List FieldVal) (s : State) :
    (regWrite fs s).roleEnableOpen = s.roleEnableOpen := rfl
@[simp] theorem regWrite_outside (fs : List FieldVal) (s : State) : (regWrite fs s).outside = s.outside := rfl
@[simp] theorem regWrite_resets (fs : List FieldVal) (s : State) : (regWrite fs s).resets = s.resets := rfl
@[simp] theorem regWrite_log (fs : List FieldVal) (s : State) : (regWrite fs s).log = s.log ++ [.regWrite fs] := rfl

/-! ## snapshot -/

@[simp] theorem snapshot_own (s : State) : (snapshot s).own = s.own := rfl
@[simp] theorem snapshot_cfg (s : State) : (snapshot s).cfg = s.cfg := rfl
@[simp] theorem snapshot_role (s : State) : (snapshot s).role = s.role := rfl
@[simp] theorem snapshot_cpol (s : State) : (snapshot s).cpol = s.cpol := rfl
@[simp] theorem snapshot_cpha (s : State) : (snapshot s).cpha = s.cpha := rfl
@[simp] theorem snapshot_width (s : State) : (snapshot s).width = s.width := rfl
@[simp] theorem snapshot_fin (s : State) : (snapshot s).fin = s.fin := rfl
@[simp] theorem snapshot_freq (s : State) : (snapshot s).freq = s.freq := rfl
@[simp] theorem snapshot_n (s : State) : (snapshot s).n = s.n := rfl
@[simp] theorem snapshot_wpos (s : State) : (snapshot s).wpos = s.wpos := rfl
@[simp] theorem snapshot_rpos (s : State) : (snapshot s).rpos = s.rpos := rfl
@[simp] theorem snapshot_cap (s : State) : (snapshot s).cap = s.cap := rfl
@[simp] theorem snapshot_tries (s : State) : (snapshot s).tries = s.tries := rfl
@[simp] theorem snapshot_save1 (s : State) : (snapshot s).save1 = s.save1 := rfl
@[simp] theorem snapshot_save2 (s : State) : (snapshot s).save2 = s.save2 := rfl
@[simp] theorem snapshot_resp (s : State) : (snapshot s).resp = s.resp := rfl
@[simp] theorem snapshot_fault (s : State) : (snapshot s).fault = s.fault := rfl
@[simp] theorem snapshot_seq (s : State) : (snapshot s).seq = s.seq := rfl
@[simp] theorem snapshot_ctrl1 (s : State) : (snapshot s).ctrl1 = s.ctrl1 := rfl
@[simp] theorem snapshot_ctrl2 (s : State) : (snapshot s).ctrl2 = s.ctrl2 := rfl
@[simp] theorem snapshot_stat (s : State) : (snapshot s).stat = envStatus s.env s.draws := rfl
@[simp] theorem snapshot_clkEn (s : State) : (snapshot s).clkEn = s.clkEn := rfl
@[simp] theorem snapshot_rstLine (s : State) : (snapshot s).rstLine = s.rstLine := rfl
@[simp] theorem snapshot_fIn (s : State) : (snapshot s).fIn = s.fIn := rfl
@[simp] theorem snapshot_mem (s : State) : (snapshot s).mem = s.mem := rfl
@[simp] theorem snapshot_drainRetries (s : State) : (snapshot s).drainRetries = s.drainRetries := rfl
@[simp] theorem snapshot_env (s : State) : (snapshot s).env = envAfterStatus s.env := rfl
@[simp] theorem snapshot_draws (s : State) : (snapshot s).draws = s.draws + envStatusDraws s.env := rfl
@[simp] theorem snapshot_roleEnableOpen (s : State) : (snapshot s).roleEnableOpen = s.roleEnableOpen := rfl
@[simp] theorem snapshot_outside (s : State) : (snapshot s).outside = s.outside := rfl
@[simp] theorem snapshot_resets (s : State) : (snapshot s).resets = s.resets := rfl
@[simp] theorem snapshot_log (s : State) : (snapshot s).log = s.log ++ [.snapshot (envStatus s.env s.draws)] := rfl

/-! ## readLevel -/

@[simp] theorem readLevel_own (s : State) : (readLevel s).own = s.own := rfl
@[simp] theorem readLevel_cfg (s : State) : (readLevel s).cfg = s.cfg := rfl
@[simp] theorem readLevel_role (s : State) : (readLevel s).role = s.role := rfl
@[simp] theorem readLevel_cpol (s : State) : (readLevel s).cpol = s.cpol := rfl
@[simp] theorem readLevel_cpha (s : State) : (readLevel s).cpha = s.cpha := rfl
@[simp] theorem readLevel_width (s : State) : (readLevel s).width = s.width := rfl
@[simp] theorem readLevel_fin (s : State) : (readLevel s).fin = s.fin := rfl
@[simp] theorem readLevel_freq (s : State) : (readLevel s).freq = s.freq := rfl
@[simp] theorem readLevel_n (s : State) : (readLevel s).n = s.n := rfl
@[simp] theorem readLevel_wpos (s : State) : (readLevel s).wpos = s.wpos := rfl
@[simp] theorem readLevel_rpos (s : State) : (readLevel s).rpos = s.rpos := rfl
@[simp] theorem readLevel_cap (s : State) : (readLevel s).cap = s.cap := rfl
@[simp] theorem readLevel_tries (s : State) : (readLevel s).tries = s.tries := rfl
@[simp] theorem readLevel_save1 (s : State) : (readLevel s).save1 = s.save1 := rfl
@[simp] theorem readLevel_save2 (s : State) : (readLevel s).save2 = s.save2 := rfl
@[simp] theorem readLevel_resp (s : State) : (readLevel s).resp = s.resp := rfl
@[simp] theorem readLevel_fault (s : State) : (readLevel s).fault = s.fault := rfl
@[simp] theorem readLevel_seq (s : State) : (readLevel s).seq = s.seq := rfl
@[simp] theorem readLevel_ctrl1 (s : State) : (readLevel s).ctrl1 = s.ctrl1 := rfl
@[simp] theorem readLevel_ctrl2 (s : State) : (readLevel s).ctrl2 = s.ctrl2 := rfl
@[simp] theorem readLevel_stat (s : State) : (readLevel s).stat = { s.stat with txlvl := envLevel s.env s.draws } := rfl
@[simp] theorem readLevel_clkEn (s : State) : (readLevel s).clkEn = s.clkEn := rfl
@[simp] theorem readLevel_rstLine (s : State) : (readLevel s).rstLine = s.rstLine := rfl
@[simp] theorem readLevel_fIn (s : State) : (readLevel s).fIn = s.fIn := rfl
@[simp] theorem readLevel_mem (s : State) : (readLevel s).mem = s.mem := rfl
@[simp] theorem readLevel_drainRetries (s : State) : (readLevel s).drainRetries = s.drainRetries := rfl
@[simp] theorem readLevel_env (s : State) : (readLevel s).env = envAfterLevel s.env := rfl
@[simp] theorem readLevel_draws (s : State) : (readLevel s).draws = s.draws + envLevelDraws s.env := rfl
@[simp] theorem readLevel_roleEnableOpen (s : State) : (readLevel s).roleEnableOpen = s.roleEnableOpen := rfl
@[simp] theorem readLevel_outside (s : State) : (readLevel s).outside = s.outside := rfl
@[simp] theorem readLevel_resets (s : State) : (readLevel s).resets = s.resets := rfl
@[simp] theorem readLevel_log (s : State) : (readLevel s).log = s.log ++ [.levelRead (envLevel s.env s.draws)] := rfl

/-! ## dataWrite -/

@[simp] theorem dataWrite_own (w : Width) (v : Half) (s : State) : (dataWrite w v s).own = s.own := rfl
@[simp] theorem dataWrite_cfg (w : Width) (v : Half) (s : State) : (dataWrite w v s).cfg = s.cfg := rfl
@[simp] theorem dataWrite_role (w : Width) (v : Half) (s : State) : (dataWrite w v s).role = s.role := rfl
@[simp] theorem dataWrite_cpol (w : Width) (v : Half) (s : State) : (dataWrite w v s).cpol = s.cpol := rfl
@[simp] theorem dataWrite_cpha (w : Width) (v : Half) (s : State) : (dataWrite w v s).cpha = s.cpha := rfl
@[simp] theorem dataWrite_width (w : Width) (v : Half) (s : State) : (dataWrite w v s).width = s.width := rfl
@[simp] theorem dataWrite_fin (w : Width) (v : Half) (s : State) : (dataWrite w v s).fin = s.fin := rfl
@[simp] theorem dataWrite_freq (w : Width) (v : Half) (s : State) : (dataWrite w v s).freq = s.freq := rfl
@[simp] theorem dataWrite_n (w : Width) (v : Half) (s : State) : (dataWrite w v s).n = s.n := rfl
@[simp] theorem dataWrite_wpos (w : Width) (v : Half) (s : State) : (dataWrite w v s).wpos = s.wpos := rfl
@[simp] theorem dataWrite_rpos (w : Width) (v : Half) (s : State) : (dataWrite w v s).rpos = s.rpos := rfl
@[simp] theorem dataWrite_cap (w : Width) (v : Half) (s : State) : (dataWrite w v s).cap = s.cap := rfl
@[simp] theorem dataWrite_tries (w : Width) (v : Half) (s : State) : (dataWrite w v s).tries = s.tries := rfl
@[simp] theorem dataWrite_save1 (w : Width) (v : Half) (s : State) : (dataWrite w v s).save1 = s.save1 := rfl
@[simp] theorem dataWrite_save2 (w : Width) (v : Half) (s : State) : (dataWrite w v s).save2 = s.save2 := rfl
@[simp] theorem dataWrite_resp (w : Width) (v : Half) (s : State) : (dataWrite w v s).resp = s.resp := rfl
@[simp] theorem dataWrite_fault (w : Width) (v : Half) (s : State) : (dataWrite w v s).fault = s.fault := rfl
@[simp] theorem dataWrite_seq (w : Width) (v : Half) (s : State) : (dataWrite w v s).seq = s.seq := rfl
@[simp] theorem dataWrite_ctrl1 (w : Width) (v : Half) (s : State) : (dataWrite w v s).ctrl1 = s.ctrl1 := rfl
@[simp] theorem dataWrite_ctrl2 (w : Width) (v : Half) (s : State) : (dataWrite w v s).ctrl2 = s.ctrl2 := rfl
@[simp] theorem dataWrite_stat (w : Width) (v : Half) (s : State) : (dataWrite w v s).stat = s.stat := rfl
@[simp] theorem dataWrite_clkEn (w : Width) (v : Half) (s : State) : (dataWrite w v s).clkEn = s.clkEn := rfl
@[simp] theorem dataWrite_rstLine (w : Width) (v : Half) (s : State) : (dataWrite w v s).rstLine = s.rstLine := rfl
@[simp] theorem dataWrite_fIn (w : Width) (v : Half) (s : State) : (dataWrite w v s).fIn = s.fIn := rfl
@[simp] theorem dataWrite_mem (w : Width) (v : Half) (s : State) : (dataWrite w v s).mem = s.mem := rfl
@[simp] theorem dataWrite_drainRetries (w : Width) (v : Half) (s : State) :
    (dataWrite w v s).drainRetries = s.drainRetries := rfl
@[simp] theorem dataWrite_env (w : Width) (v : Half) (s : State) :
    (dataWrite w v s).env = envAfterWrite s.ctrl1.bidimode v s.env := rfl
@[simp] theorem dataWrite_draws (w : Width) (v : Half) (s : State) : (dataWrite w v s).draws = s.draws := rfl
@[simp] theorem dataWrite_roleEnableOpen (w : Width) (v : Half) (s : State) :
    (dataWrite w v s).roleEnableOpen = s.roleEnableOpen := rfl
@[simp] theorem dataWrite_outside (w : Width) (v : Half) (s : State) : (dataWrite w v s).outside = s.outside := rfl
@[simp] theorem dataWrite_resets (w : Width) (v : Half) (s : State) : (dataWrite w v s).resets = s.resets := rfl
@[simp] theorem dataWrite_log (w : Width) (v : Half) (s : State) : (dataWrite w v s).log = s.log ++ [.dataWrite w v] := rfl

/-! ## dataRead -/

@[simp] theorem dataRead_own (w : Width) (s : State) : (dataRead w s).own = s.own := rfl
@[simp] theorem dataRead_cfg (w : Width) (s : State) : (dataRead w s).cfg = s.cfg := rfl
@[simp] theorem dataRead_role (w : Width) (s : State) : (dataRead w s).role = s.role := rfl
@[simp] theorem dataRead_cpol (w : Width) (s : State) : (dataRead w s).cpol = s.cpol := rfl
@[simp] theorem dataRead_cpha (w : Width) (s : State) : (dataRead w s).cpha = s.cpha := rfl
@[simp] theorem dataRead_width (w : Width) (s : State) : (dataRead w s).width = s.width := rfl
@[simp] theorem dataRead_fin (w : Width) (s : State) : (dataRead w s).fin = s.fin := rfl
@[simp] theorem dataRead_freq (w : Width) (s : State) : (dataRead w s).freq = s.freq := rfl
@[simp] theorem dataRead_n (w : Width) (s : State) : (dataRead w s).n = s.n := rfl
@[simp] theorem dataRead_wpos (w : Width) (s : State) : (dataRead w s).wpos = s.wpos := rfl
@[simp] theorem dataRead_rpos (w : Width) (s : State) : (dataRead w s).rpos = s.rpos := rfl
@[simp] theorem dataRead_cap (w : Width) (s : State) : (dataRead w s).cap = s.cap := rfl
@[simp] theorem dataRead_tries (w : Width) (s : State) : (dataRead w s).tries = s.tries := rfl
@[simp] theorem dataRead_save1 (w : Width) (s : State) : (dataRead w s).save1 = s.save1 := rfl
@[simp] theorem dataRead_save2 (w : Width) (s : State) : (dataRead w s).save2 = s.save2 := rfl
@[simp] theorem dataRead_resp (w : Width) (s : State) : (dataRead w s).resp = s.resp := rfl
@[simp] theorem dataRead_fault (w : Width) (s : State) : (dataRead w s).fault = s.fault := rfl
@[simp] theorem dataRead_seq (w : Width) (s : State) : (dataRead w s).seq = s.seq := rfl
@[simp] theorem dataRead_ctrl1 (w : Width) (s : State) : (dataRead w s).ctrl1 = s.ctrl1 := rfl
@[simp] theorem dataRead_ctrl2 (w : Width) (s : State) : (dataRead w s).ctrl2 = s.ctrl2 := rfl
@[simp] theorem dataRead_stat (w : Width) (s : State) : (dataRead w s).stat = s.stat := rfl
@[simp] theorem dataRead_clkEn (w : Width) (s : State) : (dataRead w s).clkEn = s.clkEn := rfl
@[simp] theorem dataRead_rstLine (w : Width) (s : State) : (dataRead w s).rstLine = s.rstLine := rfl
@[simp] theorem dataRead_fIn (w : Width) (s : State) : (dataRead w s).fIn = s.fIn := rfl
@[simp] theorem dataRead_mem (w : Width) (s : State) : (dataRead w s).mem = s.mem := rfl
@[simp] theorem dataRead_drainRetries (w : Width) (s : State) : (dataRead w s).drainRetries = s.drainRetries := rfl
@[simp] theorem dataRead_env (w : Width) (s : State) : (dataRead w s).env = envAfterData s.env := rfl
@[simp] theorem dataRead_draws (w : Width) (s : State) : (dataRead w s).draws = s.draws + envDataDraws s.env := rfl
@[simp] theorem dataRead_roleEnableOpen (w : Width) (s : State) : (dataRead w s).roleEnableOpen = s.roleEnableOpen := rfl
@[simp] theorem dataRead_outside (w : Width) (s : State) : (dataRead w s).outside = s.outside := rfl
@[simp] theorem dataRead_resets (w : Width) (s : State) : (dataRead w s).resets = s.resets := rfl
@[simp] theorem dataRead_log (w : Width) (s : State) : (dataRead w s).log = s.log ++ [.dataRead w (dataValue w s)] := rfl

/-! ## memRead -/

@[simp] theorem memRead_own (w : Width) (i : Nat) (s : State) : (memRead w i s).own = s.own := rfl
@[simp] theorem memRead_cfg (w : Width) (i : Nat) (s : State) : (memRead w i s).cfg = s.cfg := rfl
@[simp] theorem memRead_role (w : Width) (i : Nat) (s : State) : (memRead w i s).role = s.role := rfl
@[simp] theorem memRead_cpol (w : Width) (i : Nat) (s : State) : (memRead w i s).cpol = s.cpol := rfl
@[simp] theorem memRead_cpha (w : Width) (i : Nat) (s : State) : (memRead w i s).cpha = s.cpha := rfl
@[simp] theorem memRead_width (w : Width) (i : Nat) (s : State) : (memRead w i s).width = s.width := rfl
@[simp] theorem memRead_fin (w : Width) (i : Nat) (s : State) : (memRead w i s).fin = s.fin := rfl
@[simp] theorem memRead_freq (w : Width) (i : Nat) (s : State) : (memRead w i s).freq = s.freq := rfl
@[simp] theorem memRead_n (w : Width) (i : Nat) (s : State) : (memRead w i s).n = s.n := rfl
@[simp] theorem memRead_wpos (w : Width) (i : Nat) (s : State) : (memRead w i s).wpos = s.wpos := rfl
@[simp] theorem memRead_rpos (w : Width) (i : Nat) (s : State) : (memRead w i s).rpos = s.rpos := rfl
@[simp] theorem memRead_cap (w : Width) (i : Nat) (s : State) : (memRead w i s).cap = s.cap := rfl
@[simp] theorem memRead_tries (w : Width) (i : Nat) (s : State) : (memRead w i s).tries = s.tries := rfl
@[simp] theorem memRead_save1 (w : Width) (i : Nat) (s : State) : (memRead w i s).save1 = s.save1 := rfl
@[simp] theorem memRead_save2 (w : Width) (i : Nat) (s : State) : (memRead w i s).save2 = s.save2 := rfl
@[simp] theorem memRead_resp (w : Width) (i : Nat) (s : State) : (memRead w i s).resp = s.resp := rfl
@[simp] theorem memRead_fault (w : Width) (i : Nat) (s : State) : (memRead w i s).fault = s.fault := rfl
@[simp] theorem memRead_seq (w : Width) (i : Nat) (s : State) : (memRead w i s).seq = s.seq := rfl
@[simp] theorem memRead_ctrl1 (w : Width) (i : Nat) (s : State) : (memRead w i s).ctrl1 = s.ctrl1 := rfl
@[simp] theorem memRead_ctrl2 (w : Width) (i : Nat) (s : State) : (memRead w i s).ctrl2 = s.ctrl2 := rfl
@[simp] theorem memRead_stat (w : Width) (i : Nat) (s : State) : (memRead w i s).stat = s.stat := rfl
@[simp] theorem memRead_clkEn (w : Width) (i : Nat) (s : State) : (memRead w i s).clkEn = s.clkEn := rfl
@[simp] theorem memRead_rstLine (w : Width) (i : Nat) (s : State) : (memRead w i s).rstLine = s.rstLine := rfl
@[simp] theorem memRead_fIn (w : Width) (i : Nat) (s : State) : (memRead w i s).fIn = s.fIn := rfl
@[simp] theorem memRead_mem (w : Width) (i : Nat) (s : State) : (memRead w i s).mem = s.mem := rfl
@[simp] theorem memRead_drainRetries (w : Width) (i : Nat) (s : State) : (memRead w i s).drainRetries = s.drainRetries := rfl
@[simp] theorem memRead_env (w : Width) (i : Nat) (s : State) : (memRead w i s).env = s.env := rfl
@[simp] theorem memRead_draws (w : Width) (i : Nat) (s : State) : (memRead w i s).draws = s.draws := rfl
@[simp] theorem memRead_roleEnableOpen (w : Width) (i : Nat) (s : State) :
    (memRead w i s).roleEnableOpen = s.roleEnableOpen := rfl
@[simp] theorem memRead_outside (w : Width) (i : Nat) (s : State) : (memRead w i s).outside = s.outside := rfl
@[simp] theorem memRead_resets (w : Width) (i : Nat) (s : State) : (memRead w i s).resets = s.resets := rfl
@[simp] theorem memRead_log (w : Width) (i : Nat) (s : State) :
    (memRead w i s).log = s.log ++ [.memRead w i (readElem w s.mem i)] := rfl

/-! ## memWrite -/

@[simp] theorem memWrite_own (w : Width) (i : Nat) (v : Half) (s : State) : (memWrite w i v s).own = s.own := rfl
@[simp] theorem memWrite_cfg (w : Width) (i : Nat) (v : Half) (s : State) : (memWrite w i v s).cfg = s.cfg := rfl
@[simp] theorem memWrite_role (w : Width) (i : Nat) (v : Half) (s : State) : (memWrite w i v s).role = s.role := rfl
@[simp] theorem memWrite_cpol (w : Width) (i : Nat) (v : Half) (s : State) : (memWrite w i v s).cpol = s.cpol := rfl
@[simp] theorem memWrite_cpha (w : Width) (i : Nat) (v : Half) (s : State) : (memWrite w i v s).cpha = s.cpha := rfl
@[simp] theorem memWrite_width (w : Width) (i : Nat) (v : Half) (s : State) : (memWrite w i v s).width = s.width := rfl
@[simp] theorem memWrite_fin (w : Width) (i : Nat) (v : Half) (s : State) : (memWrite w i v s).fin = s.fin := rfl
@[simp] theorem memWrite_freq (w : Width) (i : Nat) (v : Half) (s : State) : (memWrite w i v s).freq = s.freq := rfl
@[simp] theorem memWrite_n (w : Width) (i : Nat) (v : Half) (s : State) : (memWrite w i v s).n = s.n := rfl
@[simp] theorem memWrite_wpos (w : Width) (i : Nat) (v : Half) (s : State) : (memWrite w i v s).wpos = s.wpos := rfl
@[simp] theorem memWrite_rpos (w : Width) (i : Nat) (v : Half) (s : State) : (memWrite w i v s).rpos = s.rpos := rfl
@[simp] theorem memWrite_cap (w : Width) (i : Nat) (v : Half) (s : State) : (memWrite w i v s).cap = s.cap := rfl
@[simp] theorem memWrite_tries (w : Width) (i : Nat) (v : Half) (s : State) : (memWrite w i v s).tries = s.tries := rfl
@[simp] theorem memWrite_save1 (w : Width) (i : Nat) (v : Half) (s : State) : (memWrite w i v s).save1 = s.save1 := rfl
@[simp] theorem memWrite_save2 (w : Width) (i : Nat) (v : Half) (s : State) : (memWrite w i v s).save2 = s.save2 := rfl
@[simp] theorem memWrite_resp (w : Width) (i : Nat) (v : Half) (s : State) : (memWrite w i v s).resp = s.resp := rfl
@[simp] theorem memWrite_fault (w : Width) (i : Nat) (v : Half) (s : State) : (memWrite w i v s).fault = s.fault := rfl
@[simp] theorem memWrite_seq (w : Width) (i : Nat) (v : Half) (s : State) : (memWrite w i v s).seq = s.seq := rfl
@[simp] theorem memWrite_ctrl1 (w : Width) (i : Nat) (v : Half) (s : State) : (memWrite w i v s).ctrl1 = s.ctrl1 := rfl
@[simp] theorem memWrite_ctrl2 (w : Width) (i : Nat) (v : Half) (s : State) : (memWrite w i v s).ctrl2 = s.ctrl2 := rfl
@[simp] theorem memWrite_stat (w : Width) (i : Nat) (v : Half) (s : State) : (memWrite w i v s).stat = s.stat := rfl
@[simp] theorem memWrite_clkEn (w : Width) (i : Nat) (v : Half) (s : State) : (memWrite w i v s).clkEn = s.clkEn := rfl
@[simp] theorem memWrite_rstLine (w : Width) (i : Nat) (v : Half) (s : State) : (memWrite w i v s).rstLine = s.rstLine := rfl
@[simp] theorem memWrite_fIn (w : Width) (i : Nat) (v : Half) (s : State) : (memWrite w i v s).fIn = s.fIn := rfl
@[simp] theorem memWrite_mem (w : Width) (i : Nat) (v : Half) (s : State) :
    (memWrite w i v s).mem = writeElem w s.mem i v := rfl
@[simp] theorem memWrite_drainRetries (w : Width) (i : Nat) (v : Half) (s : State) :
    (memWrite w i v s).drainRetries = s.drainRetries := rfl
@[simp] theorem memWrite_env (w : Width) (i : Nat) (v : Half) (s : State) : (memWrite w i v s).env = s.env := rfl
@[simp] theorem memWrite_draws (w : Width) (i : Nat) (v : Half) (s : State) : (memWrite w i v s).draws = s.draws := rfl
@[simp] theorem memWrite_roleEnableOpen (w : Width) (i : Nat) (v : Half) (s : State) :
    (memWrite w i v s).roleEnableOpen = s.roleEnableOpen := rfl
@[simp] theorem memWrite_outside (w : Width) (i : Nat) (v : Half) (s : State) : (memWrite w i v s).outside = s.outside := rfl
@[simp] theorem memWrite_resets (w : Width) (i : Nat) (v : Half) (s : State) : (memWrite w i v s).resets = s.resets := rfl
@[simp] theorem memWrite_log (w : Width) (i : Nat) (v : Half) (s : State) :
    (memWrite w i v s).log = s.log ++ [.memWrite w i v] := rfl

/-! ## clkEnable -/

@[simp] theorem clkEnable_own (s : State) : (clkEnable s).own = s.own := rfl
@[simp] theorem clkEnable_cfg (s : State) : (clkEnable s).cfg = s.cfg := rfl
@[simp] theorem clkEnable_role (s : State) : (clkEnable s).role = s.role := rfl
@[simp] theorem clkEnable_cpol (s : State) : (clkEnable s).cpol = s.cpol := rfl
@[simp] theorem clkEnable_cpha (s : State) : (clkEnable s).cpha = s.cpha := rfl
@[simp] theorem clkEnable_width (s : State) : (clkEnable s).width = s.width := rfl
@[simp] theorem clkEnable_fin (s : State) : (clkEnable s).fin = s.fin := rfl
@[simp] theorem clkEnable_freq (s : State) : (clkEnable s).freq = s.freq := rfl
@[simp] theorem clkEnable_n (s : State) : (clkEnable s).n = s.n := rfl
@[simp] theorem clkEnable_wpos (s : State) : (clkEnable s).wpos = s.wpos := rfl
@[simp] theorem clkEnable_rpos (s : State) : (clkEnable s).rpos = s.rpos := rfl
@[simp] theorem clkEnable_cap (s : State) : (clkEnable s).cap = s.cap := rfl
@[simp] theorem clkEnable_tries (s : State) : (clkEnable s).tries = s.tries := rfl
@[simp] theorem clkEnable_save1 (s : State) : (clkEnable s).save1 = s.save1 := rfl
@[simp] theorem clkEnable_save2 (s : State) : (clkEnable s).save2 = s.save2 := rfl
@[simp] theorem clkEnable_resp (s : State) : (clkEnable s).resp = s.resp := rfl
@[simp] theorem clkEnable_fault (s : State) : (clkEnable s).fault = s.fault := rfl
@[simp] theorem clkEnable_seq (s : State) : (clkEnable s).seq = s.seq := rfl
@[simp] theorem clkEnable_ctrl1 (s : State) : (clkEnable s).ctrl1 = s.ctrl1 := rfl
@[simp] theorem clkEnable_ctrl2 (s : State) : (clkEnable s).ctrl2 = s.ctrl2 := rfl
@[simp] theorem clkEnable_stat (s : State) : (clkEnable s).stat = s.stat := rfl
@[simp] theorem clkEnable_clkEn (s : State) : (clkEnable s).clkEn = true := rfl
@[simp] theorem clkEnable_rstLine (s : State) : (clkEnable s).rstLine = s.rstLine := rfl
@[simp] theorem clkEnable_fIn (s : State) : (clkEnable s).fIn = s.fIn := rfl
@[simp] theorem clkEnable_mem (s : State) : (clkEnable s).mem = s.mem := rfl
@[simp] theorem clkEnable_drainRetries (s : State) : (clkEnable s).drainRetries = s.drainRetries := rfl
@[simp] theorem clkEnable_env (s : State) : (clkEnable s).env = s.env := rfl
@[simp] theorem clkEnable_draws (s : State) : (clkEnable s).draws = s.draws := rfl
@[simp] theorem clkEnable_roleEnableOpen (s : State) : (clkEnable s).roleEnableOpen = s.roleEnableOpen := rfl
@[simp] theorem clkEnable_outside (s : State) : (clkEnable s).outside = s.outside := rfl
@[simp] theorem clkEnable_resets (s : State) : (clkEnable s).resets = s.resets := rfl
@[simp] theorem clkEnable_log (s : State) : (clkEnable s).log = s.log ++ [.clkEnable] := rfl

/-! ## rstAssert -/

@[simp] theorem rstAssert_own (s : State) : (rstAssert s).own = s.own := rfl
@[simp] theorem rstAssert_cfg (s : State) : (rstAssert s).cfg = s.cfg := rfl
@[simp] theorem rstAssert_role (s : State) : (rstAssert s).role = s.role := rfl
@[simp] theorem rstAssert_cpol (s : State) : (rstAssert s).cpol = s.cpol := rfl
@[simp] theorem rstAssert_cpha (s : State) : (rstAssert s).cpha = s.cpha := rfl
@[simp] theorem rstAssert_width (s : State) : (rstAssert s).width = s.width := rfl
@[simp] theorem rstAssert_fin (s : State) : (rstAssert s).fin = s.fin := rfl
@[simp] theorem rstAssert_freq (s : State) : (rstAssert s).freq = s.freq := rfl
@[simp] theorem rstAssert_n (s : State) : (rstAssert s).n = s.n := rfl
@[simp] theorem rstAssert_wpos (s : State) : (rstAssert s).wpos = s.wpos := rfl
@[simp] theorem rstAssert_rpos (s : State) : (rstAssert s).rpos = s.rpos := rfl
@[simp] theorem rstAssert_cap (s : State) : (rstAssert s).cap = s.cap := rfl
@[simp] theorem rstAssert_tries (s : State) : (rstAssert s).tries = s.tries := rfl
@[simp] theorem rstAssert_save1 (s : State) : (rstAssert s).save1 = s.save1 := rfl
@[simp] theorem rstAssert_save2 (s : State) : (rstAssert s).save2 = s.save2 := rfl
@[simp] theorem rstAssert_resp (s : State) : (rstAssert s).resp = s.resp := rfl
@[simp] theorem rstAssert_fault (s : State) : (rstAssert s).fault = s.fault := rfl
@[simp] theorem rstAssert_seq (s : State) : (rstAssert s).seq = s.seq := rfl
@[simp] theorem rstAssert_ctrl1 (s : State) : (rstAssert s).ctrl1 = s.ctrl1 := rfl
@[simp] theorem rstAssert_ctrl2 (s : State) : (rstAssert s).ctrl2 = s.ctrl2 := rfl
@[simp] theorem rstAssert_stat (s : State) : (rstAssert s).stat = s.stat := rfl
@[simp] theorem rstAssert_clkEn (s : State) : (rstAssert s).clkEn = s.clkEn := rfl
@[simp] theorem rstAssert_rstLine (s : State) : (rstAssert s).rstLine = true := rfl
@[simp] theorem rstAssert_fIn (s : State) : (rstAssert s).fIn = s.fIn := rfl
@[simp] theorem rstAssert_mem (s : State) : (rstAssert s).mem = s.mem := rfl
@[simp] theorem rstAssert_drainRetries (s : State) : (rstAssert s).drainRetries = s.drainRetries := rfl
@[simp] theorem rstAssert_env (s : State) : (rstAssert s).env = s.env := rfl
@[simp] theorem rstAssert_draws (s : State) : (rstAssert s).draws = s.draws := rfl
@[simp] theorem rstAssert_roleEnableOpen (s : State) : (rstAssert s).roleEnableOpen = s.roleEnableOpen := rfl
@[simp] theorem rstAssert_outside (s : State) : (rstAssert s).outside = s.outside := rfl
@[simp] theorem rstAssert_resets (s : State) : (rstAssert s).resets = s.resets := rfl
@[simp] theorem rstAssert_log (s : State) : (rstAssert s).log = s.log ++ [.rstAssert] := rfl

/-! ## rstDeassert -/

@[simp] theorem rstDeassert_own (s : State) : (rstDeassert s).own = s.own := rfl
@[simp] theorem rstDeassert_cfg (s : State) : (rstDeassert s).cfg = s.cfg := rfl
@[simp] theorem rstDeassert_role (s : State) : (rstDeassert s).role = s.role := rfl
@[simp] theorem rstDeassert_cpol (s : State) : (rstDeassert s).cpol = s.cpol := rfl
@[simp] theorem rstDeassert_cpha (s : State) : (rstDeassert s).cpha = s.cpha := rfl
@[simp] theorem rstDeassert_width (s : State) : (rstDeassert s).width = s.width := rfl
@[simp] theorem rstDeassert_fin (s : State) : (rstDeassert s).fin = s.fin := rfl
@[simp] theorem rstDeassert_freq (s : State) : (rstDeassert s).freq = s.freq := rfl
@[simp] theorem rstDeassert_n (s : State) : (rstDeassert s).n = s.n := rfl
@[simp] theorem rstDeassert_wpos (s : State) : (rstDeassert s).wpos = s.wpos := rfl
@[simp] theorem rstDeassert_rpos (s : State) : (rstDeassert s).rpos = s.rpos := rfl
@[simp] theorem rstDeassert_cap (s : State) : (rstDeassert s).cap = s.cap := rfl
@[simp] theorem rstDeassert_tries (s : State) : (rstDeassert s).tries = s.tries := rfl
@[simp] theorem rstDeassert_save1 (s : State) : (rstDeassert s).save1 = s.save1 := rfl
@[simp] theorem rstDeassert_save2 (s : State) : (rstDeassert s).save2 = s.save2 := rfl
@[simp] theorem rstDeassert_resp (s : State) : (rstDeassert s).resp = s.resp := rfl
@[simp] theorem rstDeassert_fault (s : State) : (rstDeassert s).fault = s.fault := rfl
@[simp] theorem rstDeassert_seq (s : State) : (rstDeassert s).seq = s.seq := rfl
@[simp] theorem rstDeassert_ctrl1 (s : State) : (rstDeassert s).ctrl1 = ctrl1AfterPulse := rfl
@[simp] theorem rstDeassert_ctrl2 (s : State) : (rstDeassert s).ctrl2 = ctrl2AfterPulse := rfl
@[simp] theorem rstDeassert_stat (s : State) : (rstDeassert s).stat = Config.freeStatus s.draws := rfl
@[simp] theorem rstDeassert_clkEn (s : State) : (rstDeassert s).clkEn = s.clkEn := rfl
@[simp] theorem rstDeassert_rstLine (s : State) : (rstDeassert s).rstLine = false := rfl
@[simp] theorem rstDeassert_fIn (s : State) : (rstDeassert s).fIn = s.fIn := rfl
@[simp] theorem rstDeassert_mem (s : State) : (rstDeassert s).mem = s.mem := rfl
@[simp] theorem rstDeassert_drainRetries (s : State) : (rstDeassert s).drainRetries = s.drainRetries := rfl
@[simp] theorem rstDeassert_env (s : State) : (rstDeassert s).env = envAfterPulse s.env := rfl
@[simp] theorem rstDeassert_draws (s : State) : (rstDeassert s).draws = s.draws + 1 := rfl
@[simp] theorem rstDeassert_roleEnableOpen (s : State) : (rstDeassert s).roleEnableOpen = false := rfl
@[simp] theorem rstDeassert_outside (s : State) : (rstDeassert s).outside = s.outside := rfl
@[simp] theorem rstDeassert_resets (s : State) : (rstDeassert s).resets = s.resets := rfl
@[simp] theorem rstDeassert_log (s : State) : (rstDeassert s).log = s.log ++ [.rstDeassert] := rfl

/-! ## sampleFIn -/

@[simp] theorem sampleFIn_own (s : State) : (sampleFIn s).own = s.own := rfl
@[simp] theorem sampleFIn_cfg (s : State) : (sampleFIn s).cfg = s.cfg := rfl
@[simp] theorem sampleFIn_role (s : State) : (sampleFIn s).role = s.role := rfl
@[simp] theorem sampleFIn_cpol (s : State) : (sampleFIn s).cpol = s.cpol := rfl
@[simp] theorem sampleFIn_cpha (s : State) : (sampleFIn s).cpha = s.cpha := rfl
@[simp] theorem sampleFIn_width (s : State) : (sampleFIn s).width = s.width := rfl
@[simp] theorem sampleFIn_fin (s : State) : (sampleFIn s).fin = s.fIn := rfl
@[simp] theorem sampleFIn_freq (s : State) : (sampleFIn s).freq = s.freq := rfl
@[simp] theorem sampleFIn_n (s : State) : (sampleFIn s).n = s.n := rfl
@[simp] theorem sampleFIn_wpos (s : State) : (sampleFIn s).wpos = s.wpos := rfl
@[simp] theorem sampleFIn_rpos (s : State) : (sampleFIn s).rpos = s.rpos := rfl
@[simp] theorem sampleFIn_cap (s : State) : (sampleFIn s).cap = s.cap := rfl
@[simp] theorem sampleFIn_tries (s : State) : (sampleFIn s).tries = s.tries := rfl
@[simp] theorem sampleFIn_save1 (s : State) : (sampleFIn s).save1 = s.save1 := rfl
@[simp] theorem sampleFIn_save2 (s : State) : (sampleFIn s).save2 = s.save2 := rfl
@[simp] theorem sampleFIn_resp (s : State) : (sampleFIn s).resp = s.resp := rfl
@[simp] theorem sampleFIn_fault (s : State) : (sampleFIn s).fault = s.fault := rfl
@[simp] theorem sampleFIn_seq (s : State) : (sampleFIn s).seq = s.seq := rfl
@[simp] theorem sampleFIn_ctrl1 (s : State) : (sampleFIn s).ctrl1 = s.ctrl1 := rfl
@[simp] theorem sampleFIn_ctrl2 (s : State) : (sampleFIn s).ctrl2 = s.ctrl2 := rfl
@[simp] theorem sampleFIn_stat (s : State) : (sampleFIn s).stat = s.stat := rfl
@[simp] theorem sampleFIn_clkEn (s : State) : (sampleFIn s).clkEn = s.clkEn := rfl
@[simp] theorem sampleFIn_rstLine (s : State) : (sampleFIn s).rstLine = s.rstLine := rfl
@[simp] theorem sampleFIn_fIn (s : State) : (sampleFIn s).fIn = s.fIn := rfl
@[simp] theorem sampleFIn_mem (s : State) : (sampleFIn s).mem = s.mem := rfl
@[simp] theorem sampleFIn_drainRetries (s : State) : (sampleFIn s).drainRetries = s.drainRetries := rfl
@[simp] theorem sampleFIn_env (s : State) : (sampleFIn s).env = s.env := rfl
@[simp] theorem sampleFIn_draws (s : State) : (sampleFIn s).draws = s.draws := rfl
@[simp] theorem sampleFIn_roleEnableOpen (s : State) : (sampleFIn s).roleEnableOpen = s.roleEnableOpen := rfl
@[simp] theorem sampleFIn_outside (s : State) : (sampleFIn s).outside = s.outside := rfl
@[simp] theorem sampleFIn_resets (s : State) : (sampleFIn s).resets = s.resets := rfl
@[simp] theorem sampleFIn_log (s : State) : (sampleFIn s).log = s.log ++ [.fIn s.fIn] := rfl

/-! ## finish -/

@[simp] theorem finish_own (r : Resp) (s : State) : (finish r s).own = s.own := rfl
@[simp] theorem finish_cfg (r : Resp) (s : State) : (finish r s).cfg = s.cfg := rfl
@[simp] theorem finish_role (r : Resp) (s : State) : (finish r s).role = s.role := rfl
@[simp] theorem finish_cpol (r : Resp) (s : State) : (finish r s).cpol = s.cpol := rfl
@[simp] theorem finish_cpha (r : Resp) (s : State) : (finish r s).cpha = s.cpha := rfl
@[simp] theorem finish_width (r : Resp) (s : State) : (finish r s).width = s.width := rfl
@[simp] theorem finish_fin (r : Resp) (s : State) : (finish r s).fin = s.fin := rfl
@[simp] theorem finish_freq (r : Resp) (s : State) : (finish r s).freq = s.freq := rfl
@[simp] theorem finish_n (r : Resp) (s : State) : (finish r s).n = s.n := rfl
@[simp] theorem finish_wpos (r : Resp) (s : State) : (finish r s).wpos = s.wpos := rfl
@[simp] theorem finish_rpos (r : Resp) (s : State) : (finish r s).rpos = s.rpos := rfl
@[simp] theorem finish_cap (r : Resp) (s : State) : (finish r s).cap = s.cap := rfl
@[simp] theorem finish_tries (r : Resp) (s : State) : (finish r s).tries = s.tries := rfl
@[simp] theorem finish_save1 (r : Resp) (s : State) : (finish r s).save1 = s.save1 := rfl
@[simp] theorem finish_save2 (r : Resp) (s : State) : (finish r s).save2 = s.save2 := rfl
@[simp] theorem finish_resp (r : Resp) (s : State) : (finish r s).resp = r := rfl
@[simp] theorem finish_fault (r : Resp) (s : State) : (finish r s).fault = s.fault := rfl
@[simp] theorem finish_seq (r : Resp) (s : State) : (finish r s).seq = .idle := rfl
@[simp] theorem finish_ctrl1 (r : Resp) (s : State) : (finish r s).ctrl1 = s.ctrl1 := rfl
@[simp] theorem finish_ctrl2 (r : Resp) (s : State) : (finish r s).ctrl2 = s.ctrl2 := rfl
@[simp] theorem finish_stat (r : Resp) (s : State) : (finish r s).stat = s.stat := rfl
@[simp] theorem finish_clkEn (r : Resp) (s : State) : (finish r s).clkEn = s.clkEn := rfl
@[simp] theorem finish_rstLine (r : Resp) (s : State) : (finish r s).rstLine = s.rstLine := rfl
@[simp] theorem finish_fIn (r : Resp) (s : State) : (finish r s).fIn = s.fIn := rfl
@[simp] theorem finish_mem (r : Resp) (s : State) : (finish r s).mem = s.mem := rfl
@[simp] theorem finish_drainRetries (r : Resp) (s : State) : (finish r s).drainRetries = s.drainRetries := rfl
@[simp] theorem finish_env (r : Resp) (s : State) : (finish r s).env = s.env := rfl
@[simp] theorem finish_draws (r : Resp) (s : State) : (finish r s).draws = s.draws := rfl
@[simp] theorem finish_roleEnableOpen (r : Resp) (s : State) : (finish r s).roleEnableOpen = s.roleEnableOpen := rfl
@[simp] theorem finish_outside (r : Resp) (s : State) : (finish r s).outside = s.outside := rfl
@[simp] theorem finish_resets (r : Resp) (s : State) : (finish r s).resets = s.resets := rfl
@[simp] theorem finish_log (r : Resp) (s : State) : (finish r s).log = s.log := rfl

/-! ## reject -/

@[simp] theorem reject_own (s : State) : (reject s).own = s.own := rfl
@[simp] theorem reject_cfg (s : State) : (reject s).cfg = s.cfg := rfl
@[simp] theorem reject_role (s : State) : (reject s).role = s.role := rfl
@[simp] theorem reject_cpol (s : State) : (reject s).cpol = s.cpol := rfl
@[simp] theorem reject_cpha (s : State) : (reject s).cpha = s.cpha := rfl
@[simp] theorem reject_width (s : State) : (reject s).width = s.width := rfl
@[simp] theorem reject_fin (s : State) : (reject s).fin = s.fin := rfl
@[simp] theorem reject_freq (s : State) : (reject s).freq = s.freq := rfl
@[simp] theorem reject_n (s : State) : (reject s).n = s.n := rfl
@[simp] theorem reject_wpos (s : State) : (reject s).wpos = s.wpos := rfl
@[simp] theorem reject_rpos (s : State) : (reject s).rpos = s.rpos := rfl
@[simp] theorem reject_cap (s : State) : (reject s).cap = s.cap := rfl
@[simp] theorem reject_tries (s : State) : (reject s).tries = s.tries := rfl
@[simp] theorem reject_save1 (s : State) : (reject s).save1 = s.save1 := rfl
@[simp] theorem reject_save2 (s : State) : (reject s).save2 = s.save2 := rfl
@[simp] theorem reject_resp (s : State) : (reject s).resp = .rejected := rfl
@[simp] theorem reject_fault (s : State) : (reject s).fault = s.fault := rfl
@[simp] theorem reject_seq (s : State) : (reject s).seq = .idle := rfl
@[simp] theorem reject_ctrl1 (s : State) : (reject s).ctrl1 = s.ctrl1 := rfl
@[simp] theorem reject_ctrl2 (s : State) : (reject s).ctrl2 = s.ctrl2 := rfl
@[simp] theorem reject_stat (s : State) : (reject s).stat = s.stat := rfl
@[simp] theorem reject_clkEn (s : State) : (reject s).clkEn = s.clkEn := rfl
@[simp] theorem reject_rstLine (s : State) : (reject s).rstLine = s.rstLine := rfl
@[simp] theorem reject_fIn (s : State) : (reject s).fIn = s.fIn := rfl
@[simp] theorem reject_mem (s : State) : (reject s).mem = s.mem := rfl
@[simp] theorem reject_drainRetries (s : State) : (reject s).drainRetries = s.drainRetries := rfl
@[simp] theorem reject_env (s : State) : (reject s).env = s.env := rfl
@[simp] theorem reject_draws (s : State) : (reject s).draws = s.draws := rfl
@[simp] theorem reject_roleEnableOpen (s : State) : (reject s).roleEnableOpen = s.roleEnableOpen := rfl
@[simp] theorem reject_outside (s : State) : (reject s).outside = s.outside := rfl
@[simp] theorem reject_resets (s : State) : (reject s).resets = s.resets := rfl
@[simp] theorem reject_log (s : State) : (reject s).log = s.log := rfl

/-! ## raiseFault -/

@[simp] theorem raiseFault_own (s : State) : (raiseFault s).own = s.own := rfl
@[simp] theorem raiseFault_cfg (s : State) : (raiseFault s).cfg = s.cfg := rfl
@[simp] theorem raiseFault_role (s : State) : (raiseFault s).role = s.role := rfl
@[simp] theorem raiseFault_cpol (s : State) : (raiseFault s).cpol = s.cpol := rfl
@[simp] theorem raiseFault_cpha (s : State) : (raiseFault s).cpha = s.cpha := rfl
@[simp] theorem raiseFault_width (s : State) : (raiseFault s).width = s.width := rfl
@[simp] theorem raiseFault_fin (s : State) : (raiseFault s).fin = s.fin := rfl
@[simp] theorem raiseFault_freq (s : State) : (raiseFault s).freq = s.freq := rfl
@[simp] theorem raiseFault_n (s : State) : (raiseFault s).n = s.n := rfl
@[simp] theorem raiseFault_wpos (s : State) : (raiseFault s).wpos = s.wpos := rfl
@[simp] theorem raiseFault_rpos (s : State) : (raiseFault s).rpos = s.rpos := rfl
@[simp] theorem raiseFault_cap (s : State) : (raiseFault s).cap = s.cap := rfl
@[simp] theorem raiseFault_tries (s : State) : (raiseFault s).tries = s.tries := rfl
@[simp] theorem raiseFault_save1 (s : State) : (raiseFault s).save1 = s.save1 := rfl
@[simp] theorem raiseFault_save2 (s : State) : (raiseFault s).save2 = s.save2 := rfl
@[simp] theorem raiseFault_resp (s : State) : (raiseFault s).resp = s.resp := rfl
@[simp] theorem raiseFault_fault (s : State) : (raiseFault s).fault = .divisorUndefined := rfl
@[simp] theorem raiseFault_seq (s : State) : (raiseFault s).seq = s.seq := rfl
@[simp] theorem raiseFault_ctrl1 (s : State) : (raiseFault s).ctrl1 = s.ctrl1 := rfl
@[simp] theorem raiseFault_ctrl2 (s : State) : (raiseFault s).ctrl2 = s.ctrl2 := rfl
@[simp] theorem raiseFault_stat (s : State) : (raiseFault s).stat = s.stat := rfl
@[simp] theorem raiseFault_clkEn (s : State) : (raiseFault s).clkEn = s.clkEn := rfl
@[simp] theorem raiseFault_rstLine (s : State) : (raiseFault s).rstLine = s.rstLine := rfl
@[simp] theorem raiseFault_fIn (s : State) : (raiseFault s).fIn = s.fIn := rfl
@[simp] theorem raiseFault_mem (s : State) : (raiseFault s).mem = s.mem := rfl
@[simp] theorem raiseFault_drainRetries (s : State) : (raiseFault s).drainRetries = s.drainRetries := rfl
@[simp] theorem raiseFault_env (s : State) : (raiseFault s).env = s.env := rfl
@[simp] theorem raiseFault_draws (s : State) : (raiseFault s).draws = s.draws := rfl
@[simp] theorem raiseFault_roleEnableOpen (s : State) : (raiseFault s).roleEnableOpen = s.roleEnableOpen := rfl
@[simp] theorem raiseFault_outside (s : State) : (raiseFault s).outside = s.outside := rfl
@[simp] theorem raiseFault_resets (s : State) : (raiseFault s).resets = s.resets := rfl
@[simp] theorem raiseFault_log (s : State) : (raiseFault s).log = s.log := rfl

/-! ## openRoleEnable -/

@[simp] theorem openRoleEnable_own (s : State) : (openRoleEnable s).own = s.own := rfl
@[simp] theorem openRoleEnable_cfg (s : State) : (openRoleEnable s).cfg = s.cfg := rfl
@[simp] theorem openRoleEnable_role (s : State) : (openRoleEnable s).role = s.role := rfl
@[simp] theorem openRoleEnable_cpol (s : State) : (openRoleEnable s).cpol = s.cpol := rfl
@[simp] theorem openRoleEnable_cpha (s : State) : (openRoleEnable s).cpha = s.cpha := rfl
@[simp] theorem openRoleEnable_width (s : State) : (openRoleEnable s).width = s.width := rfl
@[simp] theorem openRoleEnable_fin (s : State) : (openRoleEnable s).fin = s.fin := rfl
@[simp] theorem openRoleEnable_freq (s : State) : (openRoleEnable s).freq = s.freq := rfl
@[simp] theorem openRoleEnable_n (s : State) : (openRoleEnable s).n = s.n := rfl
@[simp] theorem openRoleEnable_wpos (s : State) : (openRoleEnable s).wpos = s.wpos := rfl
@[simp] theorem openRoleEnable_rpos (s : State) : (openRoleEnable s).rpos = s.rpos := rfl
@[simp] theorem openRoleEnable_cap (s : State) : (openRoleEnable s).cap = s.cap := rfl
@[simp] theorem openRoleEnable_tries (s : State) : (openRoleEnable s).tries = s.tries := rfl
@[simp] theorem openRoleEnable_save1 (s : State) : (openRoleEnable s).save1 = s.save1 := rfl
@[simp] theorem openRoleEnable_save2 (s : State) : (openRoleEnable s).save2 = s.save2 := rfl
@[simp] theorem openRoleEnable_resp (s : State) : (openRoleEnable s).resp = s.resp := rfl
@[simp] theorem openRoleEnable_fault (s : State) : (openRoleEnable s).fault = s.fault := rfl
@[simp] theorem openRoleEnable_seq (s : State) : (openRoleEnable s).seq = s.seq := rfl
@[simp] theorem openRoleEnable_ctrl1 (s : State) :
    (openRoleEnable s).ctrl1 = { s.ctrl1 with mstr := Config.freeBit s.draws, en := Config.freeBit (s.draws + 1) } := rfl
@[simp] theorem openRoleEnable_ctrl2 (s : State) : (openRoleEnable s).ctrl2 = s.ctrl2 := rfl
@[simp] theorem openRoleEnable_stat (s : State) : (openRoleEnable s).stat = s.stat := rfl
@[simp] theorem openRoleEnable_clkEn (s : State) : (openRoleEnable s).clkEn = s.clkEn := rfl
@[simp] theorem openRoleEnable_rstLine (s : State) : (openRoleEnable s).rstLine = s.rstLine := rfl
@[simp] theorem openRoleEnable_fIn (s : State) : (openRoleEnable s).fIn = s.fIn := rfl
@[simp] theorem openRoleEnable_mem (s : State) : (openRoleEnable s).mem = s.mem := rfl
@[simp] theorem openRoleEnable_drainRetries (s : State) : (openRoleEnable s).drainRetries = s.drainRetries := rfl
@[simp] theorem openRoleEnable_env (s : State) : (openRoleEnable s).env = s.env := rfl
@[simp] theorem openRoleEnable_draws (s : State) : (openRoleEnable s).draws = s.draws + 2 := rfl
@[simp] theorem openRoleEnable_roleEnableOpen (s : State) : (openRoleEnable s).roleEnableOpen = true := rfl
@[simp] theorem openRoleEnable_outside (s : State) : (openRoleEnable s).outside = s.outside := rfl
@[simp] theorem openRoleEnable_resets (s : State) : (openRoleEnable s).resets = s.resets := rfl
@[simp] theorem openRoleEnable_log (s : State) : (openRoleEnable s).log = s.log := rfl

/-! ## goto -/

@[simp] theorem goto_own (q : Seq) (s : State) : (goto q s).own = s.own := rfl
@[simp] theorem goto_cfg (q : Seq) (s : State) : (goto q s).cfg = s.cfg := rfl
@[simp] theorem goto_role (q : Seq) (s : State) : (goto q s).role = s.role := rfl
@[simp] theorem goto_cpol (q : Seq) (s : State) : (goto q s).cpol = s.cpol := rfl
@[simp] theorem goto_cpha (q : Seq) (s : State) : (goto q s).cpha = s.cpha := rfl
@[simp] theorem goto_width (q : Seq) (s : State) : (goto q s).width = s.width := rfl
@[simp] theorem goto_fin (q : Seq) (s : State) : (goto q s).fin = s.fin := rfl
@[simp] theorem goto_freq (q : Seq) (s : State) : (goto q s).freq = s.freq := rfl
@[simp] theorem goto_n (q : Seq) (s : State) : (goto q s).n = s.n := rfl
@[simp] theorem goto_wpos (q : Seq) (s : State) : (goto q s).wpos = s.wpos := rfl
@[simp] theorem goto_rpos (q : Seq) (s : State) : (goto q s).rpos = s.rpos := rfl
@[simp] theorem goto_cap (q : Seq) (s : State) : (goto q s).cap = s.cap := rfl
@[simp] theorem goto_tries (q : Seq) (s : State) : (goto q s).tries = s.tries := rfl
@[simp] theorem goto_save1 (q : Seq) (s : State) : (goto q s).save1 = s.save1 := rfl
@[simp] theorem goto_save2 (q : Seq) (s : State) : (goto q s).save2 = s.save2 := rfl
@[simp] theorem goto_resp (q : Seq) (s : State) : (goto q s).resp = s.resp := rfl
@[simp] theorem goto_fault (q : Seq) (s : State) : (goto q s).fault = s.fault := rfl
@[simp] theorem goto_seq (q : Seq) (s : State) : (goto q s).seq = q := rfl
@[simp] theorem goto_ctrl1 (q : Seq) (s : State) : (goto q s).ctrl1 = s.ctrl1 := rfl
@[simp] theorem goto_ctrl2 (q : Seq) (s : State) : (goto q s).ctrl2 = s.ctrl2 := rfl
@[simp] theorem goto_stat (q : Seq) (s : State) : (goto q s).stat = s.stat := rfl
@[simp] theorem goto_clkEn (q : Seq) (s : State) : (goto q s).clkEn = s.clkEn := rfl
@[simp] theorem goto_rstLine (q : Seq) (s : State) : (goto q s).rstLine = s.rstLine := rfl
@[simp] theorem goto_fIn (q : Seq) (s : State) : (goto q s).fIn = s.fIn := rfl
@[simp] theorem goto_mem (q : Seq) (s : State) : (goto q s).mem = s.mem := rfl
@[simp] theorem goto_drainRetries (q : Seq) (s : State) : (goto q s).drainRetries = s.drainRetries := rfl
@[simp] theorem goto_env (q : Seq) (s : State) : (goto q s).env = s.env := rfl
@[simp] theorem goto_draws (q : Seq) (s : State) : (goto q s).draws = s.draws := rfl
@[simp] theorem goto_roleEnableOpen (q : Seq) (s : State) : (goto q s).roleEnableOpen = s.roleEnableOpen := rfl
@[simp] theorem goto_outside (q : Seq) (s : State) : (goto q s).outside = s.outside := rfl
@[simp] theorem goto_resets (q : Seq) (s : State) : (goto q s).resets = s.resets := rfl
@[simp] theorem goto_log (q : Seq) (s : State) : (goto q s).log = s.log := rfl

/-! ## blockReset -/

@[simp] theorem blockReset_own (s : State) : (blockReset s).own = State.reset.own := rfl
@[simp] theorem blockReset_cfg (s : State) : (blockReset s).cfg = State.reset.cfg := rfl
@[simp] theorem blockReset_role (s : State) : (blockReset s).role = State.reset.role := rfl
@[simp] theorem blockReset_cpol (s : State) : (blockReset s).cpol = State.reset.cpol := rfl
@[simp] theorem blockReset_cpha (s : State) : (blockReset s).cpha = State.reset.cpha := rfl
@[simp] theorem blockReset_width (s : State) : (blockReset s).width = State.reset.width := rfl
@[simp] theorem blockReset_fin (s : State) : (blockReset s).fin = State.reset.fin := rfl
@[simp] theorem blockReset_freq (s : State) : (blockReset s).freq = State.reset.freq := rfl
@[simp] theorem blockReset_n (s : State) : (blockReset s).n = State.reset.n := rfl
@[simp] theorem blockReset_wpos (s : State) : (blockReset s).wpos = State.reset.wpos := rfl
@[simp] theorem blockReset_rpos (s : State) : (blockReset s).rpos = State.reset.rpos := rfl
@[simp] theorem blockReset_cap (s : State) : (blockReset s).cap = State.reset.cap := rfl
@[simp] theorem blockReset_tries (s : State) : (blockReset s).tries = State.reset.tries := rfl
@[simp] theorem blockReset_save1 (s : State) : (blockReset s).save1 = State.reset.save1 := rfl
@[simp] theorem blockReset_save2 (s : State) : (blockReset s).save2 = State.reset.save2 := rfl
@[simp] theorem blockReset_resp (s : State) : (blockReset s).resp = State.reset.resp := rfl
@[simp] theorem blockReset_fault (s : State) : (blockReset s).fault = State.reset.fault := rfl
@[simp] theorem blockReset_seq (s : State) : (blockReset s).seq = State.reset.seq := rfl
@[simp] theorem blockReset_ctrl1 (s : State) : (blockReset s).ctrl1 = s.ctrl1 := rfl
@[simp] theorem blockReset_ctrl2 (s : State) : (blockReset s).ctrl2 = s.ctrl2 := rfl
@[simp] theorem blockReset_stat (s : State) : (blockReset s).stat = s.stat := rfl
@[simp] theorem blockReset_clkEn (s : State) : (blockReset s).clkEn = s.clkEn := rfl
@[simp] theorem blockReset_rstLine (s : State) : (blockReset s).rstLine = s.rstLine := rfl
@[simp] theorem blockReset_fIn (s : State) : (blockReset s).fIn = s.fIn := rfl
@[simp] theorem blockReset_mem (s : State) : (blockReset s).mem = s.mem := rfl
@[simp] theorem blockReset_drainRetries (s : State) : (blockReset s).drainRetries = s.drainRetries := rfl
@[simp] theorem blockReset_env (s : State) : (blockReset s).env = s.env := rfl
@[simp] theorem blockReset_draws (s : State) : (blockReset s).draws = s.draws := rfl
@[simp] theorem blockReset_roleEnableOpen (s : State) : (blockReset s).roleEnableOpen = s.roleEnableOpen := rfl
@[simp] theorem blockReset_outside (s : State) : (blockReset s).outside = s.outside := rfl
@[simp] theorem blockReset_resets (s : State) : (blockReset s).resets = s.resets := rfl
@[simp] theorem blockReset_log (s : State) : (blockReset s).log = s.log := rfl

/-! ## The block resets to come -/

@[simp] theorem later_nil : later [] = [] := rfl
@[simp] theorem later_cons (k : Nat) (rest : List Nat) : later (k :: rest) = (k - 1) :: rest := rfl

/-! ## tick -/

@[simp] theorem tick_own (s : State) : (tick s).own = s.own := rfl
@[simp] theorem tick_cfg (s : State) : (tick s).cfg = s.cfg := rfl
@[simp] theorem tick_role (s : State) : (tick s).role = s.role := rfl
@[simp] theorem tick_cpol (s : State) : (tick s).cpol = s.cpol := rfl
@[simp] theorem tick_cpha (s : State) : (tick s).cpha = s.cpha := rfl
@[simp] theorem tick_width (s : State) : (tick s).width = s.width := rfl
@[simp] theorem tick_fin (s : State) : (tick s).fin = s.fin := rfl
@[simp] theorem tick_freq (s : State) : (tick s).freq = s.freq := rfl
@[simp] theorem tick_n (s : State) : (tick s).n = s.n := rfl
@[simp] theorem tick_wpos (s : State) : (tick s).wpos = s.wpos := rfl
@[simp] theorem tick_rpos (s : State) : (tick s).rpos = s.rpos := rfl
@[simp] theorem tick_cap (s : State) : (tick s).cap = s.cap := rfl
@[simp] theorem tick_tries (s : State) : (tick s).tries = s.tries := rfl
@[simp] theorem tick_save1 (s : State) : (tick s).save1 = s.save1 := rfl
@[simp] theorem tick_save2 (s : State) : (tick s).save2 = s.save2 := rfl
@[simp] theorem tick_resp (s : State) : (tick s).resp = s.resp := rfl
@[simp] theorem tick_fault (s : State) : (tick s).fault = s.fault := rfl
@[simp] theorem tick_seq (s : State) : (tick s).seq = s.seq := rfl
@[simp] theorem tick_ctrl1 (s : State) : (tick s).ctrl1 = s.ctrl1 := rfl
@[simp] theorem tick_ctrl2 (s : State) : (tick s).ctrl2 = s.ctrl2 := rfl
@[simp] theorem tick_stat (s : State) : (tick s).stat = s.stat := rfl
@[simp] theorem tick_clkEn (s : State) : (tick s).clkEn = s.clkEn := rfl
@[simp] theorem tick_rstLine (s : State) : (tick s).rstLine = s.rstLine := rfl
@[simp] theorem tick_fIn (s : State) : (tick s).fIn = s.fIn := rfl
@[simp] theorem tick_mem (s : State) : (tick s).mem = s.mem := rfl
@[simp] theorem tick_drainRetries (s : State) : (tick s).drainRetries = s.drainRetries := rfl
@[simp] theorem tick_env (s : State) : (tick s).env = s.env := rfl
@[simp] theorem tick_draws (s : State) : (tick s).draws = s.draws := rfl
@[simp] theorem tick_roleEnableOpen (s : State) : (tick s).roleEnableOpen = s.roleEnableOpen := rfl
@[simp] theorem tick_outside (s : State) : (tick s).outside = s.outside := rfl
@[simp] theorem tick_resets (s : State) : (tick s).resets = later s.resets := rfl
@[simp] theorem tick_log (s : State) : (tick s).log = s.log := rfl

@[simp] theorem ctrl1AfterWrite_tick (fs : List FieldVal) (s : State) : ctrl1AfterWrite fs (tick s) = ctrl1AfterWrite fs s := rfl
@[simp] theorem writeDraws_tick (fs : List FieldVal) (s : State) : writeDraws fs (tick s) = writeDraws fs s := rfl
@[simp] theorem dataValue_tick (w : Width) (s : State) : dataValue w (tick s) = dataValue w s := rfl
@[simp] theorem boundReady_tick (s : State) : boundReady (tick s) = boundReady s := rfl

/-- With no block reset to come there is nothing to count. -/
theorem tick_none {s : State} (h : s.resets = []) : tick s = s := by cases s; cases h; rfl

/-! ## takeReset -/

@[simp] theorem takeReset_eq (s : State) : takeReset s = { blockReset s with resets := s.resets.tail } := rfl

end Sys2Proof.Machine
end

