-- ==== Sys2Proof/Laws/Memory.lean ====
section
/-! SUPPORT. The laws of the caller's memory: a read after a write, a write leaves every other place alone, and every
operation keeps the canonical form. -/

namespace Sys2Proof.Machine

/-! ## Cells -/

theorem findCell_putCell_same (a : Nat) (b : Byte) (l : List Host.Cell) : findCell a (putCell a b l) = some b := by
  induction l with
  | nil => simp [putCell, findCell]
  | cons c rest ih =>
    simp only [putCell]
    split
    · simp [findCell]
    · split
      · simp [findCell]
      · rename_i h1 h2
        simp only [findCell]
        rw [if_neg (fun h => h2 h.symm), ih]

theorem findCell_putCell_ne {a x : Nat} (b : Byte) (l : List Host.Cell) (h : x ≠ a) :
    findCell x (putCell a b l) = findCell x l := by
  induction l with
  | nil => simp [putCell, findCell, Ne.symm h]
  | cons c rest ih =>
    simp only [putCell]
    split
    · simp [findCell, Ne.symm h]
    · split
      · rename_i h1 h2
        simp [findCell, ← h2, Ne.symm h]
      · simp only [findCell, ih]

theorem mem_putCell {a : Nat} {b : Byte} {l : List Host.Cell} {c : Host.Cell} (h : c ∈ putCell a b l) :
    c = (a, b) ∨ c ∈ l := by
  induction l with
  | nil => simpa [putCell] using h
  | cons d rest ih =>
    simp only [putCell] at h
    split at h
    · simpa using h
    · split at h
      · rcases List.mem_cons.1 h with h | h
        · exact .inl h
        · exact .inr (List.mem_cons_of_mem _ h)
      · rcases List.mem_cons.1 h with h | h
        · exact .inr (by simp [h])
        · exact (ih h).imp_right (List.mem_cons_of_mem _)

theorem putCell_pairwise (a : Nat) (b : Byte) {l : List Host.Cell} (h : l.Pairwise (fun x y => x.1 < y.1)) :
    (putCell a b l).Pairwise (fun x y => x.1 < y.1) := by
  induction l with
  | nil => simp [putCell]
  | cons c rest ih =>
    obtain ⟨hc, hr⟩ := List.pairwise_cons.1 h
    simp only [putCell]
    split
    · rename_i hlt
      refine List.pairwise_cons.2 ⟨fun d hd => ?_, h⟩
      rcases List.mem_cons.1 hd with rfl | hd
      · exact hlt
      · exact Nat.lt_trans hlt (hc d hd)
    · split
      · rename_i heq
        exact List.pairwise_cons.2 ⟨fun d hd => by simpa [heq] using hc d hd, hr⟩
      · rename_i hlt hne
        refine List.pairwise_cons.2 ⟨fun d hd => ?_, ih hr⟩
        rcases mem_putCell hd with rfl | hd
        · show c.1 < a
          omega
        · exact hc d hd

/-! ## Bytes -/

theorem readByte_writeByte_same (m : Memory) (a : Nat) (b : Byte) : readByte (writeByte m a b) a = b := by
  simp [readByte, writeByte, findCell_putCell_same]

theorem readByte_writeByte_ne (m : Memory) {a x : Nat} (b : Byte) (h : x ≠ a) :
    readByte (writeByte m a b) x = readByte m x := by
  simp [readByte, writeByte, findCell_putCell_ne b m.cells h, unlistedByte]

theorem writeByte_wf {m : Memory} {a : Nat} (b : Byte) (h : m.wf) (ha : a < Config.bufferBytes) : (writeByte m a b).wf :=
  ⟨putCell_pairwise a b h.1, fun c hc => by
    rcases mem_putCell hc with rfl | hc
    · exact ha
    · exact h.2 c hc⟩

/-! ## Elements -/

theorem elemAddr_w8 (i : Nat) : elemAddr .w8 i = i := by simp [elemAddr, bytesOf]

theorem elemAddr_w16 (i : Nat) : elemAddr .w16 i = i * 2 := by simp [elemAddr, bytesOf]

/-- The bytes of element `i` are `[i*W/8, (i+1)*W/8)`: a byte outside them is left alone. -/
theorem readByte_writeElem_outside (w : Width) (m : Memory) (i : Nat) (v : Half) {x : Nat}
    (h : x < elemAddr w i ∨ elemAddr w (i + 1) ≤ x) : readByte (writeElem w m i v) x = readByte m x := by
  cases w
  · simp only [elemAddr_w8] at h
    exact readByte_writeByte_ne m _ (by rw [elemAddr_w8]; omega)
  · simp only [elemAddr_w16] at h
    simp only [writeElem]
    rw [readByte_writeByte_ne _ _ (by rw [elemAddr_w16]; omega), readByte_writeByte_ne _ _ (by rw [elemAddr_w16]; omega)]

theorem narrow_w8_toNat (v : Half) : (narrow .w8 v).toNat = v.toNat % 256 := by
  simp [narrow]
  omega

theorem readElem_writeElem_same (w : Width) (m : Memory) (i : Nat) (v : Half) :
    readElem w (writeElem w m i v) i = narrow w v := by
  cases w
  · simp [readElem, writeElem, readByte_writeByte_same, narrow]
  · simp only [readElem, writeElem, narrow, readByte_writeByte_same]
    rw [readByte_writeByte_ne _ _ (by omega), readByte_writeByte_same]
    apply BitVec.eq_of_toNat_eq
    have := v.isLt
    simp only [BitVec.toNat_append, BitVec.extractLsb'_toNat, Nat.shiftRight_zero]
    rw [Nat.shiftLeft_eq, Nat.shiftRight_eq_div_pow]
    rw [show (v.toNat / 2 ^ 8 % 2 ^ 8) * 2 ^ 8 ||| v.toNat % 2 ^ 8 = (v.toNat / 2 ^ 8 % 2 ^ 8) * 2 ^ 8 + v.toNat % 2 ^ 8 by
      rw [Nat.mul_comm, Nat.two_pow_add_eq_or_of_lt (Nat.mod_lt _ (by norm_num))]]
    omega

theorem readElem_writeElem_ne (w : Width) (m : Memory) {i j : Nat} (v : Half) (h : j ≠ i) :
    readElem w (writeElem w m i v) j = readElem w m j := by
  cases w
  · simp only [readElem]
    rw [readByte_writeElem_outside _ _ _ _ (by simp only [elemAddr_w8]; omega)]
  · simp only [readElem]
    rw [readByte_writeElem_outside _ _ _ _ (by simp only [elemAddr_w16]; omega),
      readByte_writeElem_outside _ _ _ _ (by simp only [elemAddr_w16]; omega)]

/-- An element read from the buffer is no wider than the element. -/
theorem narrow_readElem (w : Width) (m : Memory) (i : Nat) : narrow w (readElem w m i) = readElem w m i := by
  cases w
  · simp [narrow, readElem]
  · rfl

theorem writeElem_wf {w : Width} {m : Memory} {i : Nat} (v : Half) (h : m.wf) (hi : i < 2 ^ 32) : (writeElem w m i v).wf := by
  cases w
  · exact writeByte_wf _ h (by rw [elemAddr_w8]; unfold Config.bufferBytes; omega)
  · exact writeByte_wf _ (writeByte_wf _ h (by rw [elemAddr_w16]; unfold Config.bufferBytes; omega))
      (by rw [elemAddr_w16]; unfold Config.bufferBytes; omega)

/-! ## Unspecified ranges -/

theorem unspecify_wf {m : Memory} (lo hi : Nat) (h : m.wf) : (unspecify lo hi m).wf :=
  ⟨h.1.filter _, fun c hc => h.2 c (List.mem_filter.1 hc).1⟩

theorem findCell_filter_keep {p : Host.Cell → Bool} {x : Nat} (l : List Host.Cell) (h : ∀ c : Host.Cell, c.1 = x → p c = true) :
    findCell x (l.filter p) = findCell x l := by
  induction l with
  | nil => rfl
  | cons c rest ih =>
    by_cases hc : c.1 = x
    · simp [h c hc, findCell, hc]
    · by_cases hp : p c = true <;> simp [hp, findCell, hc, ih]

/-- An address outside the range reads as before. -/
theorem readByte_unspecify_outside (m : Memory) {lo hi x : Nat} (h : x < lo ∨ hi ≤ x) :
    readByte (unspecify lo hi m) x = readByte m x := by
  have hr : ¬(lo ≤ x ∧ x < hi) := by omega
  simp only [readByte, unspecify, unlistedByte, countRegions, if_neg hr, Nat.zero_add]
  rw [findCell_filter_keep]
  rintro c rfl
  rcases h with h | h
  · simp [Nat.not_le.2 h]
  · simp [Nat.not_lt.2 h]

theorem reset_memory_wf : State.reset.mem.wf := by decide

end Sys2Proof.Machine
end

