-- ==== Sys2Proof/Laws/Ops.lean ====
section
/-! SUPPORT. What each shared operation can do, said once: a proof cites these and does not unfold the operation. -/

namespace Sys2Proof.Machine

/-! ## RegWrite: every field but MSTR and EN takes the listed value; these two do where they are specified -/

@[simp] theorem ctrl1AfterWrite_cpha (fs : List FieldVal) (s : State) :
    (ctrl1AfterWrite fs s).cpha = (fs.foldl applyCtrl1 s.ctrl1).cpha := by unfold ctrl1AfterWrite; split <;> rfl
@[simp] theorem ctrl1AfterWrite_cpol (fs : List FieldVal) (s : State) :
    (ctrl1AfterWrite fs s).cpol = (fs.foldl applyCtrl1 s.ctrl1).cpol := by unfold ctrl1AfterWrite; split <;> rfl
@[simp] theorem ctrl1AfterWrite_br (fs : List FieldVal) (s : State) :
    (ctrl1AfterWrite fs s).br = (fs.foldl applyCtrl1 s.ctrl1).br := by unfold ctrl1AfterWrite; split <;> rfl
@[simp] theorem ctrl1AfterWrite_lsbfirst (fs : List FieldVal) (s : State) :
    (ctrl1AfterWrite fs s).lsbfirst = (fs.foldl applyCtrl1 s.ctrl1).lsbfirst := by unfold ctrl1AfterWrite; split <;> rfl
@[simp] theorem ctrl1AfterWrite_ssi (fs : List FieldVal) (s : State) :
    (ctrl1AfterWrite fs s).ssi = (fs.foldl applyCtrl1 s.ctrl1).ssi := by unfold ctrl1AfterWrite; split <;> rfl
@[simp] theorem ctrl1AfterWrite_ssm (fs : List FieldVal) (s : State) :
    (ctrl1AfterWrite fs s).ssm = (fs.foldl applyCtrl1 s.ctrl1).ssm := by unfold ctrl1AfterWrite; split <;> rfl
@[simp] theorem ctrl1AfterWrite_rxonly (fs : List FieldVal) (s : State) :
    (ctrl1AfterWrite fs s).rxonly = (fs.foldl applyCtrl1 s.ctrl1).rxonly := by unfold ctrl1AfterWrite; split <;> rfl
@[simp] theorem ctrl1AfterWrite_bidioe (fs : List FieldVal) (s : State) :
    (ctrl1AfterWrite fs s).bidioe = (fs.foldl applyCtrl1 s.ctrl1).bidioe := by unfold ctrl1AfterWrite; split <;> rfl
@[simp] theorem ctrl1AfterWrite_bidimode (fs : List FieldVal) (s : State) :
    (ctrl1AfterWrite fs s).bidimode = (fs.foldl applyCtrl1 s.ctrl1).bidimode := by unfold ctrl1AfterWrite; split <;> rfl

/-- Where MSTR and EN are specified, a `RegWrite` sets exactly the listed fields (00_scope R9). -/
theorem ctrl1AfterWrite_closed {fs : List FieldVal} {s : State} (h : s.roleEnableOpen = false) :
    ctrl1AfterWrite fs s = fs.foldl applyCtrl1 s.ctrl1 := by simp [ctrl1AfterWrite, h]

/-- A `RegWrite` that names neither MSTR nor EN sets exactly the listed fields, whatever the handle's past. -/
theorem ctrl1AfterWrite_other {fs : List FieldVal} {s : State} (h : fs.any namesRoleEnable = false) :
    ctrl1AfterWrite fs s = fs.foldl applyCtrl1 s.ctrl1 := by simp [ctrl1AfterWrite, h]

/-! ## Polls -/

/-- The Fault Detector's four results, with what each says of the snapshot (42_fault_detector R164). -/
theorem poll_cases (kind : PollKind) (s : Status) :
    (poll kind s = .overrun ∧ s.ovr = true) ∨ (poll kind s = .modeFault ∧ s.ovr = false ∧ s.modf = true) ∨
    (poll kind s = .ready ∧ s.ovr = false ∧ s.modf = false ∧ readyBit kind s = true) ∨
    (poll kind s = .wouldBlock ∧ s.ovr = false ∧ s.modf = false ∧ readyBit kind s = false) := by
  unfold poll
  cases s.ovr <;> cases s.modf <;> cases readyBit kind s <;> simp

/-- A poll goes one of four ways, each from the state after one snapshot (42_fault_detector R167). -/
theorem pollThen_cases (kind : PollKind) (f g : State → State) (e : Resp → State → State) (s : State) :
    (poll kind (snapshot s).stat = .ready ∧ pollThen kind f g e s = f (snapshot s)) ∨
    (poll kind (snapshot s).stat = .wouldBlock ∧ pollThen kind f g e s = g (snapshot s)) ∨
    (poll kind (snapshot s).stat = .overrun ∧ pollThen kind f g e s = e .overrun (snapshot s)) ∨
    (poll kind (snapshot s).stat = .modeFault ∧ pollThen kind f g e s = e .modeFault (snapshot s)) := by
  unfold pollThen
  cases poll kind (snapshot s).stat <;> simp

/-! ## Elements -/

/-- What `sendElem` does when it answers a next state. -/
theorem sendElem_next {w : Width} {q : Seq} {s s' : State} (h : sendElem w q s = .next s') :
    s.wpos < s.n ∧
      s' = { dataWrite w (readElem w s.mem s.wpos.toNat) (memRead w s.wpos.toNat s) with wpos := s.wpos + 1#32, seq := q } := by
  unfold sendElem at h
  split at h
  · injection h with h
    exact ⟨‹_›, h.symm⟩
  · cases h

theorem sendElem_of_lt {w : Width} {q : Seq} {s : State} (h : s.wpos < s.n) :
    sendElem w q s =
      .next { dataWrite w (readElem w s.mem s.wpos.toNat) (memRead w s.wpos.toNat s) with wpos := s.wpos + 1#32, seq := q } :=
  if_pos h

/-- What `storeElem` does when it answers a next state. -/
theorem storeElem_next {w : Width} {q : Seq} {s s' : State} (h : storeElem w q s = .next s') :
    s.rpos < s.n ∧
      s' = { memWrite w s.rpos.toNat (dataValue w s) (dataRead w s) with rpos := s.rpos + 1#32, seq := q } := by
  unfold storeElem at h
  split at h
  · injection h with h
    exact ⟨‹_›, h.symm⟩
  · cases h

theorem storeElem_of_lt {w : Width} {q : Seq} {s : State} (h : s.rpos < s.n) :
    storeElem w q s =
      .next { memWrite w s.rpos.toNat (dataValue w s) (dataRead w s) with rpos := s.rpos + 1#32, seq := q } :=
  if_pos h

/-- A cursor below a bound moves up by exactly 1 (10_state R25, 40_divisor R126). -/
theorem cursor_succ {a b : Word} (h : a < b) : (a + 1#32).toNat = a.toNat + 1 := by
  have := BitVec.lt_def.1 h
  have := b.isLt
  simp only [BitVec.toNat_add, BitVec.toNat_ofNat]
  omega

/-! ## Acceptance and endings -/

/-- What acceptance does when it answers a next state (30_encoding R96). -/
theorem accept_next {lawful : Bool} {latch : State → State} {s s' : State} (h : accept lawful latch s = .next s') :
    Ready s ∧ ((lawful = true ∧ s' = latch { s with resp := .none }) ∨ (lawful = false ∧ s' = reject s)) := by
  unfold accept at h
  split at h
  · split at h <;> injection h with h
    · exact ⟨‹_›, .inl ⟨‹_›, h.symm⟩⟩
    · exact ⟨‹_›, .inr ⟨by simpa using ‹¬lawful = true›, h.symm⟩⟩
  · cases h

theorem accept_lawful {lawful : Bool} {latch : State → State} {s : State} (hr : Ready s) (hl : lawful = true) :
    accept lawful latch s = .next (latch { s with resp := .none }) := by simp [accept, hr.1, hr.2, hl]

theorem accept_unlawful {lawful : Bool} {latch : State → State} {s : State} (hr : Ready s) (hl : lawful = false) :
    accept lawful latch s = .next (reject s) := by simp [accept, hr.1, hr.2, hl]

theorem boundReady_iff (s : State) : boundReady s = true ↔ BoundReady s := by simp [boundReady, BoundReady]

/-- An error response takes its code, ends the command and leaves everything but MSTR and EN (60_exceptions R229). -/
theorem respondError_cases (r : Resp) (s : State) :
    (r ≠ .modeFault ∧ respondError r s = finish r s) ∨
    (r = .modeFault ∧ respondError r s = finish .modeFault (openRoleEnable s)) := by
  cases r <;> simp [respondError]

/-- What a host write of control fields can do: with the clock gate on and the reset line released it takes effect;
otherwise it takes effect or is ignored, by a free value (log 18). -/
theorem hostWrite_cases (fs : List FieldVal) (s : State) :
    (s.clkEn = true ∧ s.rstLine = false ∧ hostWrite fs s = setFields fs s) ∨
    hostWrite fs s = setFields fs { s with draws := s.draws + 1 } ∨ hostWrite fs s = { s with draws := s.draws + 1 } := by
  unfold hostWrite
  split
  · exact .inl ⟨by simp_all, by simp_all, rfl⟩
  · split
    · exact .inr (.inl rfl)
    · exact .inr (.inr rfl)

/-! ## Steps -/

theorem noBlockReset_iff (s : State) : noBlockReset s = true ↔ resetDue s = false := by simp [noBlockReset]

/-- With no block reset to come none is due. -/
theorem noBlockReset_of_none {s : State} (h : s.resets = []) : noBlockReset s = true := by simp [noBlockReset, resetDue, h]

/-- The block reset that is due is the step (70_reset_and_hazards R260). -/
theorem step_due {s : State} (h : resetDue s = true) : step s = .next (takeReset s) := by
  simp [step, machineStep, h]

/-- Without fault and with no block reset due, a step is the micro-step of the ticked state (10_state R24). -/
theorem step_eq_microStep {s : State} (hf : s.fault = .noFault) (hb : noBlockReset s = true) :
    step s = microStep (tick s) := by
  simp [step, machineStep, (noBlockReset_iff s).1 hb, sequencerStep, hf]

/-- Without fault and with no block reset to come at all, a step is the micro-step. -/
theorem step_eq_microStep_of_none {s : State} (hf : s.fault = .noFault) (hr : s.resets = []) : step s = microStep s := by
  rw [step_eq_microStep hf (noBlockReset_of_none hr), tick_none hr]

/-- What a step that answers a next state was: the block reset, or the micro-step of a machine without fault. -/
theorem step_next {s s' : State} (h : step s = .next s') :
    (resetDue s = true ∧ s' = takeReset s) ∨
    (s.fault = .noFault ∧ noBlockReset s = true ∧ microStep (tick s) = .next s') := by
  unfold step machineStep at h
  split at h
  · injection h with h
    exact .inl ⟨‹_›, h.symm⟩
  · refine .inr ?_
    unfold sequencerStep at h
    rw [tick_fault] at h
    cases hf : s.fault <;> rw [hf] at h
    · exact ⟨rfl, by simpa [noBlockReset] using ‹¬resetDue s = true›, h⟩
    · cases h

end Sys2Proof.Machine
end

