-- ==== Sys2Proof/Laws/Logs.lean ====
section
/-! SUPPORT. Reading a log that has grown, and the first elements of a buffer: one lemma each, for the statements on what a
transfer has sent, received and stored. -/

namespace Sys2Proof.Machine

@[simp] theorem sentValues_append (a b : List Access) : sentValues (a ++ b) = sentValues a ++ sentValues b := by
  induction a with
  | nil => rfl
  | cons x xs ih => cases x <;> simp [sentValues, ih]

@[simp] theorem receivedValues_append (a b : List Access) :
    receivedValues (a ++ b) = receivedValues a ++ receivedValues b := by
  induction a with
  | nil => rfl
  | cons x xs ih => cases x <;> simp [receivedValues, ih]

@[simp] theorem snapshotsSeen_append (a b : List Access) :
    snapshotsSeen (a ++ b) = snapshotsSeen a ++ snapshotsSeen b := by
  induction a with
  | nil => rfl
  | cons x xs ih => cases x <;> simp [snapshotsSeen, ih]

/-- Whether the latest register transaction of a log is a poll that returned Ready for receiving (43_transfer R176). -/
def armedAfter (armed : Bool) : List Access → Bool
  | [] => armed
  | .snapshot s :: rest => armedAfter (decide (poll .recv s = .ready)) rest
  | .memRead _ _ _ :: rest => armedAfter armed rest
  | .memWrite _ _ _ :: rest => armedAfter armed rest
  | _ :: rest => armedAfter false rest

/-- Whether the latest data transaction of a log is a write (43_transfer R182). -/
def outstandingAfter (outstanding : Bool) : List Access → Bool
  | [] => outstanding
  | .dataWrite _ _ :: rest => outstandingAfter true rest
  | .dataRead _ _ :: rest => outstandingAfter false rest
  | _ :: rest => outstandingAfter outstanding rest

theorem readsFollowPolls_append (armed : Bool) (a b : List Access) :
    readsFollowPolls armed (a ++ b) = (readsFollowPolls armed a && readsFollowPolls (armedAfter armed a) b) := by
  induction a generalizing armed with
  | nil => simp [readsFollowPolls, armedAfter]
  | cons x xs ih => cases x <;> simp [readsFollowPolls, armedAfter, ih, Bool.and_assoc]

theorem armedAfter_append (armed : Bool) (a b : List Access) :
    armedAfter armed (a ++ b) = armedAfter (armedAfter armed a) b := by
  induction a generalizing armed with
  | nil => rfl
  | cons x xs ih => cases x <;> simp [armedAfter, ih]

theorem alternates_append (outstanding : Bool) (a b : List Access) :
    alternates outstanding (a ++ b) = (alternates outstanding a && alternates (outstandingAfter outstanding a) b) := by
  induction a generalizing outstanding with
  | nil => simp [alternates, outstandingAfter]
  | cons x xs ih => cases x <;> simp [alternates, outstandingAfter, ih, Bool.and_assoc]

theorem outstandingAfter_append (outstanding : Bool) (a b : List Access) :
    outstandingAfter outstanding (a ++ b) = outstandingAfter (outstandingAfter outstanding a) b := by
  induction a generalizing outstanding with
  | nil => rfl
  | cons x xs ih => cases x <;> simp [outstandingAfter, ih]

/-- How many more data writes the level reads of a log allow after it (44_write R203, R205). -/
def leftAfter (refill : BitVec 2 → Nat) (left : Nat) : List Access → Nat
  | [] => left
  | .levelRead c :: rest => leftAfter refill (refill c) rest
  | .dataWrite _ _ :: rest => leftAfter refill (left - 1) rest
  | _ :: rest => leftAfter refill left rest

theorem writesWithin_append (refill : BitVec 2 → Nat) (left : Nat) (a b : List Access) :
    writesWithin refill left (a ++ b) = (writesWithin refill left a && writesWithin refill (leftAfter refill left a) b) := by
  induction a generalizing left with
  | nil => simp [writesWithin, leftAfter]
  | cons x xs ih => cases x <;> simp [writesWithin, leftAfter, ih, Bool.and_assoc]

theorem leftAfter_append (refill : BitVec 2 → Nat) (left : Nat) (a b : List Access) :
    leftAfter refill left (a ++ b) = leftAfter refill (leftAfter refill left a) b := by
  induction a generalizing left with
  | nil => rfl
  | cons x xs ih => cases x <;> simp [leftAfter, ih]

/-- A log that keeps to a bound keeps to every larger one. -/
theorem writesWithin_mono {r r' : BitVec 2 → Nat} {left left' : Nat} {l : List Access} (hr : ∀ c, r c ≤ r' c)
    (hl : left ≤ left') (h : writesWithin r left l = true) : writesWithin r' left' l = true := by
  induction l generalizing left left' with
  | nil => rfl
  | cons x xs ih =>
    cases x <;> simp only [writesWithin, Bool.and_eq_true, decide_eq_true_eq] at h ⊢
    case levelRead c => exact ih (hr c) h
    case dataWrite => exact ⟨by omega, ih (by omega) h.2⟩
    all_goals exact ih hl h

/-- An environment that shows `p` for `k + 1` snapshots shows it for `k`. -/
theorem statusesFor_of_succ {p : Status → Bool} {k : Nat} {e : Env} {d : Nat} (h : statusesFor p (k + 1) e d = true) :
    statusesFor p k e d = true := by
  induction k generalizing e d with
  | zero => rfl
  | succ k ih =>
    rw [statusesFor, Bool.and_eq_true] at h ⊢
    exact ⟨h.1, ih h.2⟩

/-- What holds of the next snapshots holds of them under a weaker condition. -/
theorem statusesFor_mono {p q : Status → Bool} (hpq : ∀ s, p s = true → q s = true) {k : Nat} {e : Env} {d : Nat}
    (h : statusesFor p k e d = true) : statusesFor q k e d = true := by
  induction k generalizing e d with
  | zero => rfl
  | succ k ih =>
    rw [statusesFor, Bool.and_eq_true] at h ⊢
    exact ⟨hpq _ h.1, ih h.2⟩

/-- An environment that shows `p` for `k + 1` reads of TXLVL shows it for `k`. -/
theorem levelsFor_of_succ {p : BitVec 2 → Bool} {k : Nat} {e : Env} {d : Nat} (h : levelsFor p (k + 1) e d = true) :
    levelsFor p k e d = true := by
  induction k generalizing e d with
  | zero => rfl
  | succ k ih =>
    rw [levelsFor, Bool.and_eq_true] at h ⊢
    exact ⟨h.1, ih h.2⟩

@[simp] theorem narrow_narrow (w : Width) (v : Half) : narrow w (narrow w v) = narrow w v := by
  cases w <;> simp [narrow]

theorem bufferElems_succ (w : Width) (m : Memory) (k : Nat) :
    bufferElems w m (k + 1) = bufferElems w m k ++ [readElem w m k] := by
  simp [bufferElems, List.range_succ]

/-- Storing element `i` leaves the elements before it alone. -/
theorem bufferElems_writeElem (w : Width) (m : Memory) {k i : Nat} (v : Half) (h : k ≤ i) :
    bufferElems w (writeElem w m i v) k = bufferElems w m k :=
  List.map_congr_left fun j hj => readElem_writeElem_ne w m v (by have := List.mem_range.1 hj; omega)

end Sys2Proof.Machine
end

