-- ==== Sys2Proof/Laws/PerInstr.lean ====
section
/-! SUPPORT. One statement per command, by constructor: the encoded word fits its row of the opcode map, `w and mask = match`
(30_encoding R93). -/

namespace Sys2Proof.Laws.FitsRow

/-- The command's word matches its row's mask and match (30_encoding R93). -/
def Statement (i : Instr) : Prop := encode i &&& i.maskWord = i.matchWord

/-- A word whose unused fields are 0 matches a row whose mask covers everything above `ARG`. -/
theorem packCommand_and_argMask (o : BitVec 8) (n : Nat) :
    packCommand o false false false n &&& 0xFFFFFFFF00000000#64 = packCommand o false false false 0 := by
  rw [show (0xFFFFFFFF00000000#64 : CmdWord) = BitVec.allOnes 64 <<< 32 by decide, and_highMask]
  apply BitVec.eq_of_toNat_eq
  have := o.isLt
  simp only [BitVec.toNat_shiftLeft, BitVec.toNat_ushiftRight, packCommand_toNat, Nat.shiftRight_eq_div_pow,
    Nat.shiftLeft_eq, Bool.toNat_false]
  omega

theorem cfgc (w : Width) (cpol cpha : Bool) (rate : Nat) : Statement (.cfgc w cpol cpha rate) := by
  unfold Statement encode Instr.maskWord Instr.matchWord Instr.opc
  rw [show (0xFFFFFFF800000000#64 : CmdWord) = BitVec.allOnes 64 <<< 35 by decide, and_highMask]
  apply BitVec.eq_of_toNat_eq
  have := (wbit w).toNat_lt
  have := cpol.toNat_lt
  have := cpha.toNat_lt
  simp only [BitVec.toNat_shiftLeft, BitVec.toNat_ushiftRight, packCommand_toNat, Nat.shiftRight_eq_div_pow,
    Nat.shiftLeft_eq, BitVec.toNat_ofNat]
  omega

theorem cfgp (w : Width) (cpol cpha : Bool) : Statement (.cfgp w cpol cpha) := by
  cases w <;> cases cpol <;> cases cpha <;> unfold Statement <;> decide

theorem ena : Statement .ena := by unfold Statement; decide

theorem dis : Statement .dis := by unfold Statement; decide

theorem to8 : Statement .to8 := by unfold Statement; decide

theorem to16 : Statement .to16 := by unfold Statement; decide

theorem rst : Statement .rst := by unfold Statement; decide

theorem rel : Statement .rel := by unfold Statement; decide

theorem xfer8 (n : Nat) : Statement (.xfer8 n) := packCommand_and_argMask 0x10#8 n

theorem xfer16 (n : Nat) : Statement (.xfer16 n) := packCommand_and_argMask 0x11#8 n

theorem wr8 (n : Nat) : Statement (.wr8 n) := packCommand_and_argMask 0x12#8 n

theorem wr16 (n : Nat) : Statement (.wr16 n) := packCommand_and_argMask 0x13#8 n

end Sys2Proof.Laws.FitsRow
end

