-- ==== Sys2Proof/Laws/Run.lean ====
section
/-! SUPPORT. Runs of several steps: how they begin, how they compose, and an induction packaged once. -/

namespace Sys2Proof.Machine

@[simp] theorem runSteps_zero (s : State) : runSteps 0 s = .next s := rfl

/-- A run that begins with a step to `s'`. -/
theorem runSteps_succ {k : Nat} {s s' : State} (h : step s = .next s') : runSteps (k + 1) s = runSteps k s' := by
  have hc : Sys2Proof.core.step s = .next s' := h
  simp only [runSteps, Host.Core.run, hc]
  rfl

/-- The same with the rest of the run known: chained with `refine`, it runs a numeral's worth of steps. -/
theorem runSteps_first {k : Nat} {s s' t : State} (h : step s = .next s') (h2 : runSteps k s' = .next t) :
    runSteps (k + 1) s = .next t := (runSteps_succ h).trans h2

/-- A run that answers a next state took a first step to one. -/
theorem runSteps_succ_next {k : Nat} {s t : State} (h : runSteps (k + 1) s = .next t) :
    ∃ s', step s = .next s' ∧ runSteps k s' = .next t := by
  simp only [runSteps, Host.Core.run] at h
  split at h
  · exact ⟨_, ‹_›, h⟩
  · cases h
  · cases h

/-- The responses of a run that begins with a step to `t` (60_exceptions R241). -/
theorem responses_succ {k : Nat} {s t : State} (h : step s = .next t) :
    responses (k + 1) s = if endsCommand s t then t.resp :: responses k t else responses k t := by
  simp only [responses, h]

/-- Two runs, one after the other. -/
theorem runSteps_trans {j k : Nat} {s t : State} (h : runSteps j s = .next t) : runSteps (j + k) s = runSteps k t := by
  induction j generalizing s with
  | zero =>
    injection h with h
    rw [Nat.zero_add, h]
  | succ j ih =>
    obtain ⟨s', h1, h2⟩ := runSteps_succ_next h
    rw [Nat.succ_add, runSteps_succ h1, ih h2]

/-- What every step keeps, every run keeps. -/
theorem runSteps_keeps {P : State → Prop} (hstep : ∀ s t, P s → step s = .next t → P t) {k : Nat} {s t : State}
    (hs : P s) (h : runSteps k s = .next t) : P t := by
  induction k generalizing s with
  | zero =>
    injection h with h
    exact h ▸ hs
  | succ k ih =>
    obtain ⟨s', h1, h2⟩ := runSteps_succ_next h
    exact ih (hstep s s' hs h1) h2

end Sys2Proof.Machine
end

