-- ==== Sys2Proof/Laws/Steps.lean ====
section
/-! SUPPORT. One lemma per micro-state: which meaning the step of that micro-state is (10_state R24); and, for the
configuration commands, that meaning as one flat update of the state, so that a run is a chain of such equations. -/

namespace Sys2Proof.Machine

/-! ## The step of each micro-state -/

theorem step_idle {s : State} (hf : s.fault = .noFault) (hb : noBlockReset s = true) (hq : s.seq = .idle) :
    step s = idleStep (tick s) := by simp only [step_eq_microStep hf hb, microStep, tick_seq, hq]
theorem step_vWrite {t : Width} {s : State} (hf : s.fault = .noFault) (hb : noBlockReset s = true)
    (hq : s.seq = .vWrite t) : step s = convertWrite t (tick s) := by simp only [step_eq_microStep hf hb, microStep, tick_seq, hq]
theorem step_cClk {s : State} (hf : s.fault = .noFault) (hb : noBlockReset s = true) (hq : s.seq = .cClk) :
    step s = cfgcClk (tick s) := by simp only [step_eq_microStep hf hb, microStep, tick_seq, hq]
theorem step_cRstA {s : State} (hf : s.fault = .noFault) (hb : noBlockReset s = true) (hq : s.seq = .cRstA) :
    step s = cfgcRstA (tick s) := by simp only [step_eq_microStep hf hb, microStep, tick_seq, hq]
theorem step_cRstD {s : State} (hf : s.fault = .noFault) (hb : noBlockReset s = true) (hq : s.seq = .cRstD) :
    step s = cfgcRstD (tick s) := by simp only [step_eq_microStep hf hb, microStep, tick_seq, hq]
theorem step_cDis {s : State} (hf : s.fault = .noFault) (hb : noBlockReset s = true) (hq : s.seq = .cDis) :
    step s = cfgcDis (tick s) := by simp only [step_eq_microStep hf hb, microStep, tick_seq, hq]
theorem step_cCtrl {s : State} (hf : s.fault = .noFault) (hb : noBlockReset s = true) (hq : s.seq = .cCtrl) :
    step s = cfgcCtrl (tick s) := by simp only [step_eq_microStep hf hb, microStep, tick_seq, hq]
theorem step_cWidth {s : State} (hf : s.fault = .noFault) (hb : noBlockReset s = true) (hq : s.seq = .cWidth) :
    step s = cfgcWidth (tick s) := by simp only [step_eq_microStep hf hb, microStep, tick_seq, hq]
theorem step_cEn {s : State} (hf : s.fault = .noFault) (hb : noBlockReset s = true) (hq : s.seq = .cEn) :
    step s = cfgcEn (tick s) := by simp only [step_eq_microStep hf hb, microStep, tick_seq, hq]
theorem step_pClk {s : State} (hf : s.fault = .noFault) (hb : noBlockReset s = true) (hq : s.seq = .pClk) :
    step s = cfgpClk (tick s) := by simp only [step_eq_microStep hf hb, microStep, tick_seq, hq]
theorem step_pRstA {s : State} (hf : s.fault = .noFault) (hb : noBlockReset s = true) (hq : s.seq = .pRstA) :
    step s = cfgpRstA (tick s) := by simp only [step_eq_microStep hf hb, microStep, tick_seq, hq]
theorem step_pRstD {s : State} (hf : s.fault = .noFault) (hb : noBlockReset s = true) (hq : s.seq = .pRstD) :
    step s = cfgpRstD (tick s) := by simp only [step_eq_microStep hf hb, microStep, tick_seq, hq]
theorem step_pDis {s : State} (hf : s.fault = .noFault) (hb : noBlockReset s = true) (hq : s.seq = .pDis) :
    step s = cfgpDis (tick s) := by simp only [step_eq_microStep hf hb, microStep, tick_seq, hq]
theorem step_pCtrl {s : State} (hf : s.fault = .noFault) (hb : noBlockReset s = true) (hq : s.seq = .pCtrl) :
    step s = cfgpCtrl (tick s) := by simp only [step_eq_microStep hf hb, microStep, tick_seq, hq]
theorem step_pWidth {s : State} (hf : s.fault = .noFault) (hb : noBlockReset s = true) (hq : s.seq = .pWidth) :
    step s = cfgpWidth (tick s) := by simp only [step_eq_microStep hf hb, microStep, tick_seq, hq]
theorem step_pEn {s : State} (hf : s.fault = .noFault) (hb : noBlockReset s = true) (hq : s.seq = .pEn) :
    step s = cfgpEn (tick s) := by simp only [step_eq_microStep hf hb, microStep, tick_seq, hq]
theorem step_eWrite {s : State} (hf : s.fault = .noFault) (hb : noBlockReset s = true) (hq : s.seq = .eWrite) :
    step s = enaWrite (tick s) := by simp only [step_eq_microStep hf hb, microStep, tick_seq, hq]
theorem step_dWrite {s : State} (hf : s.fault = .noFault) (hb : noBlockReset s = true) (hq : s.seq = .dWrite) :
    step s = disWrite (tick s) := by simp only [step_eq_microStep hf hb, microStep, tick_seq, hq]
theorem step_sSave1 {s : State} (hf : s.fault = .noFault) (hb : noBlockReset s = true) (hq : s.seq = .sSave1) :
    step s = rstSave1 (tick s) := by simp only [step_eq_microStep hf hb, microStep, tick_seq, hq]
theorem step_sSave2 {s : State} (hf : s.fault = .noFault) (hb : noBlockReset s = true) (hq : s.seq = .sSave2) :
    step s = rstSave2 (tick s) := by simp only [step_eq_microStep hf hb, microStep, tick_seq, hq]
theorem step_sRstA {s : State} (hf : s.fault = .noFault) (hb : noBlockReset s = true) (hq : s.seq = .sRstA) :
    step s = rstRstA (tick s) := by simp only [step_eq_microStep hf hb, microStep, tick_seq, hq]
theorem step_sRstD {s : State} (hf : s.fault = .noFault) (hb : noBlockReset s = true) (hq : s.seq = .sRstD) :
    step s = rstRstD (tick s) := by simp only [step_eq_microStep hf hb, microStep, tick_seq, hq]
theorem step_sRest1 {s : State} (hf : s.fault = .noFault) (hb : noBlockReset s = true) (hq : s.seq = .sRest1) :
    step s = rstRest1 (tick s) := by simp only [step_eq_microStep hf hb, microStep, tick_seq, hq]
theorem step_sRest2 {s : State} (hf : s.fault = .noFault) (hb : noBlockReset s = true) (hq : s.seq = .sRest2) :
    step s = rstRest2 (tick s) := by simp only [step_eq_microStep hf hb, microStep, tick_seq, hq]
theorem step_lRel {s : State} (hf : s.fault = .noFault) (hb : noBlockReset s = true) (hq : s.seq = .lRel) :
    step s = relRelease (tick s) := by simp only [step_eq_microStep hf hb, microStep, tick_seq, hq]
theorem step_x8Setup {s : State} (hf : s.fault = .noFault) (hb : noBlockReset s = true) (hq : s.seq = .x8Setup) :
    step s = xfer8Setup (tick s) := by simp only [step_eq_microStep hf hb, microStep, tick_seq, hq]
theorem step_x8Main {s : State} (hf : s.fault = .noFault) (hb : noBlockReset s = true) (hq : s.seq = .x8Main) :
    step s = xfer8Main (tick s) := by simp only [step_eq_microStep hf hb, microStep, tick_seq, hq]
theorem step_x8Fill {s : State} (hf : s.fault = .noFault) (hb : noBlockReset s = true) (hq : s.seq = .x8Fill) :
    step s = xfer8Fill (tick s) := by simp only [step_eq_microStep hf hb, microStep, tick_seq, hq]
theorem step_x8FillPoll {s : State} (hf : s.fault = .noFault) (hb : noBlockReset s = true) (hq : s.seq = .x8FillPoll) :
    step s = xfer8FillPoll (tick s) := by simp only [step_eq_microStep hf hb, microStep, tick_seq, hq]
theorem step_x8FillSend {s : State} (hf : s.fault = .noFault) (hb : noBlockReset s = true) (hq : s.seq = .x8FillSend) :
    step s = xfer8FillSend (tick s) := by simp only [step_eq_microStep hf hb, microStep, tick_seq, hq]
theorem step_x8ReadPoll {s : State} (hf : s.fault = .noFault) (hb : noBlockReset s = true) (hq : s.seq = .x8ReadPoll) :
    step s = xfer8ReadPoll (tick s) := by simp only [step_eq_microStep hf hb, microStep, tick_seq, hq]
theorem step_x8ReadStore {s : State} (hf : s.fault = .noFault) (hb : noBlockReset s = true) (hq : s.seq = .x8ReadStore) :
    step s = xfer8ReadStore (tick s) := by simp only [step_eq_microStep hf hb, microStep, tick_seq, hq]
theorem step_x8Drain {s : State} (hf : s.fault = .noFault) (hb : noBlockReset s = true) (hq : s.seq = .x8Drain) :
    step s = xfer8Drain (tick s) := by simp only [step_eq_microStep hf hb, microStep, tick_seq, hq]
theorem step_x8DrainPoll {s : State} (hf : s.fault = .noFault) (hb : noBlockReset s = true) (hq : s.seq = .x8DrainPoll) :
    step s = xfer8DrainPoll (tick s) := by simp only [step_eq_microStep hf hb, microStep, tick_seq, hq]
theorem step_x8DrainStore {s : State} (hf : s.fault = .noFault) (hb : noBlockReset s = true) (hq : s.seq = .x8DrainStore) :
    step s = xfer8DrainStore (tick s) := by simp only [step_eq_microStep hf hb, microStep, tick_seq, hq]
theorem step_x8Final {s : State} (hf : s.fault = .noFault) (hb : noBlockReset s = true) (hq : s.seq = .x8Final) :
    step s = xfer8Final (tick s) := by simp only [step_eq_microStep hf hb, microStep, tick_seq, hq]
theorem step_x16Setup {s : State} (hf : s.fault = .noFault) (hb : noBlockReset s = true) (hq : s.seq = .x16Setup) :
    step s = xfer16Setup (tick s) := by simp only [step_eq_microStep hf hb, microStep, tick_seq, hq]
theorem step_x16Test {s : State} (hf : s.fault = .noFault) (hb : noBlockReset s = true) (hq : s.seq = .x16Test) :
    step s = xfer16Test (tick s) := by simp only [step_eq_microStep hf hb, microStep, tick_seq, hq]
theorem step_x16SendPoll {s : State} (hf : s.fault = .noFault) (hb : noBlockReset s = true) (hq : s.seq = .x16SendPoll) :
    step s = xfer16SendPoll (tick s) := by simp only [step_eq_microStep hf hb, microStep, tick_seq, hq]
theorem step_x16Send {s : State} (hf : s.fault = .noFault) (hb : noBlockReset s = true) (hq : s.seq = .x16Send) :
    step s = xfer16Send (tick s) := by simp only [step_eq_microStep hf hb, microStep, tick_seq, hq]
theorem step_x16RecvPoll {s : State} (hf : s.fault = .noFault) (hb : noBlockReset s = true) (hq : s.seq = .x16RecvPoll) :
    step s = xfer16RecvPoll (tick s) := by simp only [step_eq_microStep hf hb, microStep, tick_seq, hq]
theorem step_x16Store {s : State} (hf : s.fault = .noFault) (hb : noBlockReset s = true) (hq : s.seq = .x16Store) :
    step s = xfer16Store (tick s) := by simp only [step_eq_microStep hf hb, microStep, tick_seq, hq]
theorem step_w8Setup {s : State} (hf : s.fault = .noFault) (hb : noBlockReset s = true) (hq : s.seq = .w8Setup) :
    step s = wr8Setup (tick s) := by simp only [step_eq_microStep hf hb, microStep, tick_seq, hq]
theorem step_w8InitPoll {s : State} (hf : s.fault = .noFault) (hb : noBlockReset s = true) (hq : s.seq = .w8InitPoll) :
    step s = wr8InitPoll (tick s) := by simp only [step_eq_microStep hf hb, microStep, tick_seq, hq]
theorem step_w8Test {s : State} (hf : s.fault = .noFault) (hb : noBlockReset s = true) (hq : s.seq = .w8Test) :
    step s = wr8Test (tick s) := by simp only [step_eq_microStep hf hb, microStep, tick_seq, hq]
theorem step_w8Cap {s : State} (hf : s.fault = .noFault) (hb : noBlockReset s = true) (hq : s.seq = .w8Cap) :
    step s = wr8Cap (tick s) := by simp only [step_eq_microStep hf hb, microStep, tick_seq, hq]
theorem step_w8CapRead {s : State} (hf : s.fault = .noFault) (hb : noBlockReset s = true) (hq : s.seq = .w8CapRead) :
    step s = wr8CapRead (tick s) := by simp only [step_eq_microStep hf hb, microStep, tick_seq, hq]
theorem step_w8Send {s : State} (hf : s.fault = .noFault) (hb : noBlockReset s = true) (hq : s.seq = .w8Send) :
    step s = wr8Send (tick s) := by simp only [step_eq_microStep hf hb, microStep, tick_seq, hq]
theorem step_w8FinalPoll {s : State} (hf : s.fault = .noFault) (hb : noBlockReset s = true) (hq : s.seq = .w8FinalPoll) :
    step s = wr8FinalPoll (tick s) := by simp only [step_eq_microStep hf hb, microStep, tick_seq, hq]
theorem step_w16Setup {s : State} (hf : s.fault = .noFault) (hb : noBlockReset s = true) (hq : s.seq = .w16Setup) :
    step s = wr16Setup (tick s) := by simp only [step_eq_microStep hf hb, microStep, tick_seq, hq]
theorem step_w16Test {s : State} (hf : s.fault = .noFault) (hb : noBlockReset s = true) (hq : s.seq = .w16Test) :
    step s = wr16Test (tick s) := by simp only [step_eq_microStep hf hb, microStep, tick_seq, hq]
theorem step_w16Poll {s : State} (hf : s.fault = .noFault) (hb : noBlockReset s = true) (hq : s.seq = .w16Poll) :
    step s = wr16Poll (tick s) := by simp only [step_eq_microStep hf hb, microStep, tick_seq, hq]
theorem step_w16Send {s : State} (hf : s.fault = .noFault) (hb : noBlockReset s = true) (hq : s.seq = .w16Send) :
    step s = wr16Send (tick s) := by simp only [step_eq_microStep hf hb, microStep, tick_seq, hq]
theorem step_w16FinalPoll {s : State} (hf : s.fault = .noFault) (hb : noBlockReset s = true) (hq : s.seq = .w16FinalPoll) :
    step s = wr16FinalPoll (tick s) := by simp only [step_eq_microStep hf hb, microStep, tick_seq, hq]

/-! ## The configuration steps as flat updates -/

theorem cfgcClk_eq (s : State) :
    cfgcClk s = .next { s with clkEn := true, seq := .cRstA, log := s.log ++ [.clkEnable] } := rfl
theorem cfgpClk_eq (s : State) :
    cfgpClk s = .next { s with clkEn := true, seq := .pRstA, log := s.log ++ [.clkEnable] } := rfl
theorem cfgcRstA_eq (s : State) :
    cfgcRstA s = .next { s with rstLine := true, seq := .cRstD, log := s.log ++ [.rstAssert] } := rfl
theorem cfgpRstA_eq (s : State) :
    cfgpRstA s = .next { s with rstLine := true, seq := .pRstD, log := s.log ++ [.rstAssert] } := rfl
theorem rstRstA_eq (s : State) :
    rstRstA s = .next { s with rstLine := true, seq := .sRstD, log := s.log ++ [.rstAssert] } := rfl
theorem cfgcRstD_eq (s : State) :
    cfgcRstD s = .next { s with
      rstLine := false, ctrl1 := ctrl1AfterPulse, ctrl2 := ctrl2AfterPulse, stat := Config.freeStatus s.draws,
      draws := s.draws + 1, env := envAfterPulse s.env, roleEnableOpen := false, cfg := .reset, seq := .cDis,
      log := s.log ++ [.rstDeassert] } := rfl
theorem cfgpRstD_eq (s : State) :
    cfgpRstD s = .next { s with
      rstLine := false, ctrl1 := ctrl1AfterPulse, ctrl2 := ctrl2AfterPulse, stat := Config.freeStatus s.draws,
      draws := s.draws + 1, env := envAfterPulse s.env, roleEnableOpen := false, cfg := .reset, seq := .pDis,
      log := s.log ++ [.rstDeassert] } := rfl
theorem rstRstD_eq (s : State) :
    rstRstD s = .next { s with
      rstLine := false, ctrl1 := ctrl1AfterPulse, ctrl2 := ctrl2AfterPulse, stat := Config.freeStatus s.draws,
      draws := s.draws + 1, env := envAfterPulse s.env, roleEnableOpen := false, seq := .sRest1,
      log := s.log ++ [.rstDeassert] } := rfl
theorem rstSave1_eq (s : State) :
    rstSave1 s = .next { s with save1 := s.ctrl1, seq := .sSave2, log := s.log ++ [.regRead1 s.ctrl1] } := rfl
theorem rstSave2_eq (s : State) :
    rstSave2 s = .next { s with save2 := s.ctrl2, seq := .sRstA, log := s.log ++ [.regRead2 s.ctrl2] } := rfl
theorem relRelease_eq (s : State) : relRelease s = .next { s with own := .free, resp := .ok, seq := .idle } := rfl

/-- A `RegWrite` where MSTR and EN are specified, as one flat update (00_scope R9). -/
theorem regWrite_closed {fs : List FieldVal} {s : State} (h : s.roleEnableOpen = false) :
    regWrite fs s = { s with
      ctrl1 := fs.foldl applyCtrl1 s.ctrl1, ctrl2 := fs.foldl applyCtrl2 s.ctrl2, log := s.log ++ [.regWrite fs] } := by
  simp [regWrite, note, setFields, ctrl1AfterWrite, writeDraws, h]

/-- A `RegWrite` that names neither MSTR nor EN, as one flat update. -/
theorem regWrite_other {fs : List FieldVal} {s : State} (h : fs.any namesRoleEnable = false) :
    regWrite fs s = { s with
      ctrl1 := fs.foldl applyCtrl1 s.ctrl1, ctrl2 := fs.foldl applyCtrl2 s.ctrl2, log := s.log ++ [.regWrite fs] } := by
  simp [regWrite, note, setFields, ctrl1AfterWrite, writeDraws, h]

end Sys2Proof.Machine
end

