-- ==== Sys2Proof/Tests/Slice0.lean ====
section
/-! SUPPORT. Tests of the model, each a named theorem whose expected result is taken from 95_test_vectors or worked out from
the rule it names; and for every statement of Certificates/Slice0/Obligations.lean that has hypotheses a witness that meets
them together. -/

namespace Sys2Proof.Tests

open Sys2Proof.Machine

/-! ## Small states -/

/-- ST-FREE with every register named, `f_in` = 48 MHz, over ENV-LOOP0 (95_test_vectors section 0). -/
def free : State where
  own := .free
  cfg := .reset
  role := .controller
  cpol := false
  cpha := false
  width := .w8
  fin := 48000000#32
  freq := 1000000#32
  n := 0#32
  wpos := 0#32
  rpos := 0#32
  cap := 0#3
  tries := 0
  save1 := ctrl1AfterPulse
  save2 := ctrl2AfterPulse
  resp := .none
  fault := .noFault
  seq := .idle
  ctrl1 := ctrl1AfterPulse
  ctrl2 := ctrl2AfterPulse
  stat := loopStatus []
  clkEn := false
  rstLine := false
  fIn := 48000000#32
  mem := { cells := [(0, 0xA5#8), (1, 0x00#8), (2, 0xFF#8), (3, 0x12#8)], regions := [] }
  drainRetries := .finite 0
  env := .loop0 []
  draws := 0
  roleEnableOpen := false
  outside := []
  resets := []
  log := []

/-- ST-W8(mode 0, k = 2). -/
def w8 : State :=
  { free with
    own := .bound, cfg := .enabled, clkEn := true, ctrl1 := unpackCtrl1 0x0354#16, ctrl2 := unpackCtrl2 0x1000#16 }

/-- ST-W16(mode 0, k = 2). -/
def w16 : State := { w8 with width := .w16, ctrl2 := unpackCtrl2 0x0800#16 }

/-- `s` in micro-state `q` of a transfer of three elements, two sent and one stored. -/
def at3 (q : Seq) (s : State) : State := { s with seq := q, n := 3#32, wpos := 2#32, rpos := 1#32, cap := 1#3 }

/-- `s` over an environment whose next snapshot is the word `v` of 30_encoding R103, and whose next level is `l`. -/
def shows (v : Half) (l : BitVec 2) (s : State) : State := { s with env := .script [unpackStatus v] [0xBEEF#16] [l] }

/-- The next state, `s` where there is none. -/
def after (s : State) : State :=
  match step s with
  | .next t => t
  | .fault _ => s
  | .refused _ => s

/-- Micro-state and response after `k` steps, none where the machine stops before. -/
def endsIn (k : Nat) (s : State) : Option (Seq × Resp) :=
  match runSteps k s with
  | .next t => some (t.seq, t.resp)
  | .fault _ => none
  | .refused _ => none

/-! ## Well-formedness -/

theorem test_wellFormed_refuses_wide_rate : ¬(Instr.cfgc .w8 false false (2 ^ 32)).WellFormed := by decide
theorem test_wellFormed_refuses_wide_xfer8 : ¬(Instr.xfer8 (2 ^ 32)).WellFormed := by decide
theorem test_wellFormed_refuses_wide_xfer16 : ¬(Instr.xfer16 (2 ^ 32)).WellFormed := by decide
theorem test_wellFormed_refuses_wide_wr8 : ¬(Instr.wr8 (2 ^ 32)).WellFormed := by decide
theorem test_wellFormed_refuses_wide_wr16 : ¬(Instr.wr16 (2 ^ 32)).WellFormed := by decide

/-- The largest operands are well-formed, and so is a rate of 0 (30_encoding R92). Witness for DecodeInvertsEncode. -/
theorem test_wellFormed_admits : ∀ i ∈ [Instr.cfgc .w16 true false (2 ^ 32 - 1), .cfgc .w8 false false 0, .cfgp .w8 false true,
    .ena, .dis, .to8, .to16, .rst, .rel, .xfer8 (2 ^ 32 - 1), .xfer16 0, .wr8 (2 ^ 32 - 1), .wr16 1], i.WellFormed := by
  decide

/-! ## Decoding (95_test_vectors 2.1), also the witnesses for EncodeInvertsDecode -/

theorem test_decode_cfgc_mode3 : decode 0x01000003000F4240#64 = .ok (.cfgc .w8 true true 1000000) := by decide
theorem test_decode_cfgc_w16 : decode 0x0100000600B71B00#64 = .ok (.cfgc .w16 true false 12000000) := by decide
theorem test_decode_cfgp_w8 : decode 0x0200000100000000#64 = .ok (.cfgp .w8 false true) := by decide
theorem test_decode_cfgp_w16 : decode 0x0200000500000000#64 = .ok (.cfgp .w16 false true) := by decide
theorem test_decode_ena : decode 0x0300000000000000#64 = .ok .ena := by decide
theorem test_decode_dis : decode 0x0400000000000000#64 = .ok .dis := by decide
theorem test_decode_to8 : decode 0x0500000000000000#64 = .ok .to8 := by decide
theorem test_decode_to16 : decode 0x0600000000000000#64 = .ok .to16 := by decide
theorem test_decode_rst : decode 0x0700000000000000#64 = .ok .rst := by decide
theorem test_decode_rel : decode 0x0800000000000000#64 = .ok .rel := by decide
theorem test_decode_xfer8 : decode 0x1000000000000003#64 = .ok (.xfer8 3) := by decide
theorem test_decode_xfer16 : decode 0x1100000000000000#64 = .ok (.xfer16 0) := by decide
theorem test_decode_wr8 : decode 0x12000000FFFFFFFF#64 = .ok (.wr8 4294967295) := by decide
theorem test_decode_wr16 : decode 0x1300000000000002#64 = .ok (.wr16 2) := by decide

/-- V-ENC-7, 9, 14, 15. -/
theorem test_decode_illegal_fields : decode 0x0200000000000001#64 = .error .operand ∧
    decode 0x0300000000000001#64 = .error .operand ∧ decode 0x1000000100000003#64 = .error .operand ∧
    decode 0x0100000800000001#64 = .error .reserved := ⟨by decide, by decide, by decide, by decide⟩
/-- V-ENC-16. -/
theorem test_decode_illegal_opcodes : decode 0x0000000000000000#64 = .error .opcode ∧
    decode 0x0900000000000000#64 = .error .opcode ∧ decode 0x0F00000000000000#64 = .error .opcode ∧
    decode 0x1400000000000000#64 = .error .opcode ∧ decode 0xFF00000000000000#64 = .error .opcode :=
  ⟨by decide, by decide, by decide, by decide, by decide⟩

theorem test_decodeTableWord_xfer8 : decodeTableWord 64 0x1000000000000003 = some (.xfer8 3) := by decide
theorem test_decodeTableWord_illegal : decodeTableWord 64 0x0300000000000001 = none := by decide
theorem test_text_cfgc : (Instr.cfgc .w8 true true 1000000).text = "CFGC w=8, cpol=1, cpha=1, rate=1000000" := by decide
/-- 30_encoding R100: Mode 2 is CPOL = 1, CPHA = 0. -/
theorem test_pseudo_mode2 : pseudoConfigurePeripheral 2#2 = .cfgp .w8 true false := by decide

/-! ## The first step after reset: CFGC is accepted, a command that needs a handle is rejected (30_encoding R97) -/

theorem test_reset_takes_cfgc : (after (State.reset.withFetchWord 64 0x01000003000F4240)).seq = .cClk := by decide
theorem test_reset_rejects_ena : (after (State.reset.withFetchWord 64 0x0300000000000000)).resp = .rejected := by decide

/-! ## The divisor (95_test_vectors 2.2), the Fault Detector, the capacity, the packed words -/

/-- V-DIV-B. -/
theorem test_divisor_boundaries :
    [1, 2, 3, 5, 6, 11, 12, 23, 24, 47, 48, 95, 96, 191, 192, 255, 256, 257, 4294967295].map
      (fun r => divisor (BitVec.ofNat 32 r) 1#32) =
    [some 0#3, some 0#3, some 1#3, some 1#3, some 2#3, some 2#3, some 3#3, some 3#3, some 4#3, some 4#3, some 5#3, some 5#3,
      some 6#3, some 6#3, some 7#3, some 7#3, some 7#3, some 7#3, some 7#3] := by decide
/-- V-DIV-3: the ratio is 2, the selector 0, and 24 MHz exceeds the 20 MHz asked for (40_divisor R125). -/
theorem test_divisor_exceeds : divisor 48000000#32 20000000#32 = some 0#3 ∧ rateExceeds 48000000#32 20000000#32 0#3 := by
  unfold rateExceeds
  decide
/-- Overrun has priority over ModeFault, and both over readiness (42_fault_detector R163, decision D16). -/
theorem test_poll_priority : poll .send (unpackStatus 0x0062#16) = .overrun ∧ poll .send (unpackStatus 0x0022#16) = .modeFault ∧
    poll .send (unpackStatus 0x0082#16) = .wouldBlock ∧ poll .recv (unpackStatus 0x0001#16) = .ready := by decide
/-- The words of 95_test_vectors section 0: `LVL=3` is 0x1800, `TXE,RXNE` is 0x0003. -/
theorem test_unpack_status : (unpackStatus 0x1800#16).txlvl = 3#2 ∧ packStatus (loopStatus [0#16]) = 0x0003#16 := by decide
/-- 0x0354 is SSM, SSI, EN, BR = 2, MSTR. -/
theorem test_unpack_ctrl1 : (unpackCtrl1 0x0354#16).br = 2#3 ∧ (unpackCtrl1 0x0354#16).ssm = true ∧
    (unpackCtrl1 0x0354#16).bidimode = false ∧ packCtrl1 (unpackCtrl1 0x0354#16) = 0x0354#16 := by decide

/-! ## The caller's memory (20_memory R60; byte order of log 3) -/

theorem test_readElem_w16 : readElem .w16 free.mem 1 = 0x12FF#16 := by decide
theorem test_writeElem_w16 : (writeElem .w16 free.mem 0 0xBEEF#16).cells =
    [(0, 0xEF#8), (1, 0xBE#8), (2, 0xFF#8), (3, 0x12#8)] := by decide
theorem test_writeElem_w8_narrows : (writeElem .w8 free.mem 2 0xBEEF#16).cells =
    [(0, 0xA5#8), (1, 0x00#8), (2, 0xEF#8), (3, 0x12#8)] := by decide

/-! ## Commands, one step each -/

/-- 41_config R132 with program P1: `BR` = 5, all nine fields in one write. -/
theorem test_cfgc_ctrl : (after { free with own := .bound, cpol := true, cpha := true, seq := .cCtrl }).log =
    [.regWrite [.cpha true, .cpol true, .mstr true, .br 5#3, .lsbfirst false, .ssm true, .ssi true, .rxonly false,
      .bidimode false]] := by decide
/-- R226, program P4: a rate above `f_in` faults with `seq` at C_CTRL and nothing written. -/
theorem test_cfgc_fault : (after { free with own := .bound, freq := 48000001#32, seq := .cCtrl }).fault = .divisorUndefined ∧
    (after { free with own := .bound, freq := 48000001#32, seq := .cCtrl }).log = [] := by decide
/-- R137: BR and SSI are not written. -/
theorem test_cfgp_ctrl : (after { free with own := .bound, seq := .pCtrl }).log =
    [.regWrite [.cpha false, .cpol false, .mstr false, .lsbfirst false, .ssm false, .rxonly false, .bidimode false]] := by
  decide
theorem test_ena_enables : (after { w8 with seq := .eWrite, cfg := .disabledConfigured }).cfg = .enabled := by decide
theorem test_dis_clears_en : packCtrl1 (after { w8 with seq := .dWrite }).ctrl1 = 0x0314#16 := by decide
theorem test_to8_fields : packCtrl2 (after { w16 with seq := .vWrite .w8 }).ctrl2 = 0x1000#16 := by decide
theorem test_to16_fields : packCtrl2 (after { w8 with seq := .vWrite .w16 }).ctrl2 = 0x0800#16 := by decide
/-- R144: the restore of group 1 leaves EN at 0 although it was saved as 1. -/
theorem test_rst_restores : packCtrl1 (after { w8 with save1 := w8.ctrl1, ctrl1 := ctrl1AfterPulse, seq := .sRest1 }).ctrl1 =
    0x0314#16 := by decide
theorem test_rel_frees : (after { w8 with seq := .lRel }).own = .free := by decide
/-- R173: Ready with every element sent already read goes back to the main loop. -/
theorem test_xfer8_poll_before_cursor : (after { shows 0x0003 0 (at3 .x8ReadPoll w8) with rpos := 2#32 }).seq = .x8Main := by
  decide
/-- R174, DRAIN_RETRIES = 0: the first Would-Block of the drain is Incomplete. -/
theorem test_xfer8_incomplete : (after (shows 0x0002 0 (at3 .x8DrainPoll w8))).resp = .incomplete := by decide
/-- R180: the element read is stored at `rpos`, low byte first. -/
theorem test_xfer16_store : (after (shows 0 0 { at3 .x16Store w16 with rpos := 0#32 })).mem.cells =
    [(0, 0xEF#8), (1, 0xBE#8), (2, 0xFF#8), (3, 0x12#8)] := by decide
theorem test_xfer16_overrun : (after (shows 0x0042 0 (at3 .x16RecvPoll w16))).resp = .overrun := by decide
/-- R203: level 2 is a credit of 2; the status bits are not looked at. -/
theorem test_wr8_capacity : (after (shows 0x0062 2#2 (at3 .w8CapRead w8))).cap = 2#3 := by decide
/-- R204: an OVR in the final poll is ignored. -/
theorem test_wr8_final_ignores : (after (shows 0x0042 0 (at3 .w8FinalPoll w8))).resp = .ok := by decide
theorem test_wr16_blocks_on_busy : (after (shows 0x0082 0 (at3 .w16Poll w16))).seq = .w16Poll := by decide
theorem test_wr16_modeFault : (after (shows 0x0022 0 (at3 .w16Poll w16))).resp = .modeFault := by decide

/-! ## The block reset (70_reset_and_hazards R260, R276), the gated clock (R263), the end of a run (60_exceptions R241) -/

/-- CFGC with a rate above `f_in`, and a block reset to come well after: the six steps end in the faulted C_CTRL (R226), and the
seventh is the reset, which frees the handle and makes no transaction. -/
theorem test_reset_after_fault :
    endsIn 6 { free with outside := [.present 0x0100000002DC6C01#64], resets := [9] } = some (.cCtrl, .none) ∧
    endsIn 7 { free with outside := [.present 0x0100000002DC6C01#64], resets := [9] } = some (.idle, .none) := by decide
/-- A receive poll that ENV-STALL never answers: three polls, then the reset. -/
theorem test_reset_ends_stuck_poll :
    endsIn 3 { at3 .x16RecvPoll w16 with env := .stall, resets := [3] } = some (.x16RecvPoll, .none) ∧
    endsIn 4 { at3 .x16RecvPoll w16 with env := .stall, resets := [3] } = some (.idle, .none) := by decide
/-- With the clock gate on the host's write takes effect. -/
theorem test_host_write : (after { free with clkEn := true, outside := [.fieldWrite [.lsbfirst true]] }).ctrl1.lsbfirst = true := by
  decide
/-- Four commands, the second illegal in the state: four responses. -/
theorem test_responses : responses 8 { w8 with outside :=
      [.present (encode .to16), .present (encode (.xfer8 0)), .present (encode .dis), .present (encode .rel)] } =
    [.ok, .rejected, .ok, .ok] := by decide
theorem test_register_words : registerOffset .data = 0x0C ∧ registerWord .ctrl1 w8 = 0x0354#16 ∧
    registerWord .data (shows 0 0 w8) = 0x00EF#16 ∧ registerWord .data (shows 0 0 w16) = 0xBEEF#16 ∧
    registerWord .stat (shows 0x1843 0 w8) = 0x1843#16 := by decide
/-- A read without a Ready poll, and a second write before the read, are seen. -/
theorem test_log_discipline :
    readsFollowPolls false [.snapshot (unpackStatus 0x0002), .dataRead .w8 0] = false ∧
    readsFollowPolls false [.snapshot (unpackStatus 0x0001), .dataRead .w8 0] = true ∧
    alternates false [.dataWrite .w16 1, .memRead .w16 1 2, .dataWrite .w16 2] = false := by decide
/-- Level 1 is a credit of 3 (44_write R203): the fourth write of the same credit is seen. -/
theorem test_credit_discipline :
    writesWithin (fun c => (txcap c).toNat) 0
      [.levelRead 1, .dataWrite .w8 1, .dataWrite .w8 2, .dataWrite .w8 3, .levelRead 3, .levelRead 0, .dataWrite .w8 4] = true ∧
    writesWithin (fun c => (txcap c).toNat) 0
      [.levelRead 1, .dataWrite .w8 1, .dataWrite .w8 2, .dataWrite .w8 3, .dataWrite .w8 4] = false := by decide

/-! ## Witnesses: for each statement with hypotheses, a state and operands that meet them together -/

theorem witness_OpcodeMapDecides : decode 0x1000000000000003#64 = .ok (.xfer8 3) ∧
    0x1000000000000003#64 &&& (Instr.xfer8 0).maskWord = (Instr.xfer8 0).matchWord := by decide
theorem witness_PackingRoundTrip :
    (∀ f ∈ [FieldVal.dsize true, .rxth false], fieldRegister f = .ctrl2) ∧ RegName.ctrl1 ≠ .ctrl2 ∧ RegName.ctrl1 ≠ .data ∧
    (∀ f ∈ [FieldVal.mstr true, .en true], fieldRegister f = .ctrl1) ∧ RegName.stat ≠ .ctrl1 ∧ RegName.data ≠ .ctrl1 ∧
    RegName.ctrl2 ≠ .ctrl1 ∧ w8.roleEnableOpen = false := by decide
theorem witness_StepRunsDecodedCommand :
    noBlockReset { w8 with outside := [.present 0x1000000000000003#64], resets := [1] } = true ∧
    Ready { w8 with outside := [.present 0x1000000000000003#64] } ∧ decode 0x1000000000000003#64 = .ok (.xfer8 3) := by decide
theorem witness_FetchWordIsTaken : decodeTableWord 64 0x1300000000000002 = some (.wr16 2) := by decide
theorem witness_IllegalWordRejected :
    Ready { free with outside := [.present 0#64] } ∧ noBlockReset { free with outside := [.present 0#64] } = true ∧
    ∀ i, decode 0#64 ≠ .ok i :=
  ⟨by decide, by decide, fun i => by rw [show decode 0#64 = .error .opcode by decide]; simp⟩
theorem witness_IllegalInStateRejected_free : Ready free ∧ (Instr.ena).WellFormed ∧ ¬Legal .ena free := by
  refine ⟨by decide, by decide, ?_⟩
  simp [Legal, free]
theorem witness_IllegalInStateRejected_bound : Ready w8 ∧ (Instr.cfgp .w8 false false).WellFormed ∧
    ¬Legal (.cfgp .w8 false false) w8 := by
  refine ⟨by decide, by decide, ?_⟩
  simp [Legal, w8]
theorem witness_IllegalInStateRejected_width : Ready w16 ∧ (Instr.xfer8 1).WellFormed ∧ ¬Legal (.xfer8 1) w16 := by
  refine ⟨by decide, by decide, ?_⟩
  simp [Legal, w16]
theorem witness_LegalCommandAccepted_free : Ready free ∧ Legal (.cfgc .w8 false false 0) free ∧
    Legal (.cfgp .w16 true true) free := by
  refine ⟨by decide, ?_, ?_⟩ <;> simp [Legal, free]
theorem witness_LegalCommandAccepted_w8 : Ready w8 ∧
    ∀ i ∈ [Instr.ena, .dis, .to8, .to16, .rst, .rel, .xfer8 (2 ^ 32 - 1), .wr8 0], i.WellFormed ∧ Legal i w8 := by
  refine ⟨by decide, ?_⟩
  simp [Legal, w8, free, Instr.WellFormed, Instr.wellFormed, fitsArg]
theorem witness_LegalCommandAccepted_w16 : Ready w16 ∧
    ∀ i ∈ [Instr.xfer16 (2 ^ 32 - 1), .wr16 0], i.WellFormed ∧ Legal i w16 := by
  refine ⟨by decide, ?_⟩
  simp [Legal, w16, w8, free, Instr.WellFormed, Instr.wellFormed, fitsArg]
theorem witness_CommandWhileBusyRefused : ¬Ready (at3 .x8Main w8) ∧ ¬Ready { free with fault := .divisorUndefined } := by
  decide
theorem witness_NoHostMoveWhileRunning :
    (at3 .x8Main w8).seq ≠ .idle ∧ noBlockReset (at3 .x8Main w8) = true ∧ ∃ t, step (at3 .x8Main w8) = .next t :=
  ⟨by decide, by decide, _, rfl⟩

/-- ControllerConstructionAccepted and ControllerConstructionCompletes, at the lowest and the highest rate. -/
theorem witness_ControllerConstruction : Ready free ∧ free.own = .free ∧ NoResetToCome free ∧
    (0 < 1 ∧ 1 < 2 ^ 32 ∧ 1 ≤ free.fIn.toNat) ∧ (0 < 48000000 ∧ 48000000 < 2 ^ 32 ∧ 48000000 ≤ free.fIn.toNat) := by decide
/-- Both reasons: a rate of 0, and the first rate above `f_in`. -/
theorem witness_DivisorFaultStopsConstruction : Ready free ∧ free.own = .free ∧ NoResetToCome free ∧
    (0 = 0 ∨ free.fIn.toNat < 0) ∧ (48000001 < 2 ^ 32 ∧ (48000001 = 0 ∨ free.fIn.toNat < 48000001)) := by decide
/-- PeripheralConstructionAccepted and PeripheralConstructionCompletes. -/
theorem witness_PeripheralConstruction : Ready free ∧ free.own = .free ∧ NoResetToCome free := by decide
/-- EnableDisableComplete, WidthConversionCompletes, ResetPreservesFields, ReleaseCompletes and TransfersAccepted. -/
theorem witness_ReadyHandle : ReadyHandle w8 ∧ NoResetToCome w8 ∧ w8.roleEnableOpen = false := by decide
theorem witness_EnableDisableAfterModeFault :
    ReadyHandle { w8 with roleEnableOpen := true } ∧ NoResetToCome { w8 with roleEnableOpen := true } := by decide
theorem witness_WidthConversionReversible :
    ReadyHandle { w8 with outside := [.present (encode .to16), .present (encode .to8)] } ∧
    NoResetToCome { w8 with outside := [.present (encode .to16), .present (encode .to8)] } ∧
    w8.width = .w8 ∧ w8.ctrl2 = group2Of .w8 := by decide

/-- `s` is in the middle of a command of a live handle, outside construction and RST, with no block reset to come. -/
abbrev MidCommand (s : State) : Prop :=
  s.own = .bound ∧ inConstruction s.seq = false ∧ inReset s.seq = false ∧ noBlockReset s = true ∧ s.seq ≠ .idle

/-- HandleConfigurationImmutable, DirectionSetByFirstStep (its first and third clause) and TransferFrame. -/
theorem witness_BoundStep_xfer : (MidCommand (at3 .x8Setup w8) ∧ inTransfer (at3 .x8Setup w8).seq = true ∧
      step (at3 .x8Setup w8) = .next (after (at3 .x8Setup w8))) ∧
    (MidCommand (at3 .x16Store w16) ∧ inTransfer (at3 .x16Store w16).seq = true ∧
      step (at3 .x16Store w16) = .next (after (at3 .x16Store w16))) ∧
    (MidCommand (at3 .x8DrainPoll w8) ∧ inTransfer (at3 .x8DrainPoll w8).seq = true ∧
      step (at3 .x8DrainPoll w8) = .next (after (at3 .x8DrainPoll w8)) ∧ (after (at3 .x8DrainPoll w8)).seq = .idle) ∧
    (MidCommand (at3 .x8Final w8) ∧ inTransfer (at3 .x8Final w8).seq = true ∧
      step (at3 .x8Final w8) = .next (after (at3 .x8Final w8)) ∧ (after (at3 .x8Final w8)).seq = .idle) :=
  ⟨⟨by decide, rfl, rfl⟩, ⟨by decide, rfl, rfl⟩, ⟨by decide, rfl, rfl, rfl⟩, by decide, rfl, rfl, rfl⟩
/-- The same: the second clause of DirectionSetByFirstStep, and a send-only step of TransferFrame. -/
theorem witness_BoundStep_write : (MidCommand (at3 .w16Setup w16) ∧ inTransfer (at3 .w16Setup w16).seq = true ∧
      step (at3 .w16Setup w16) = .next (after (at3 .w16Setup w16))) ∧
    MidCommand (at3 .w8Send w8) ∧ inWrite (at3 .w8Send w8).seq = true ∧
      step (at3 .w8Send w8) = .next (after (at3 .w8Send w8)) :=
  ⟨⟨by decide, rfl, rfl⟩, by decide, rfl, rfl⟩
/-- HandleConfigurationImmutable at the one step that changes the width. -/
theorem witness_HandleConfigurationImmutable : MidCommand (at3 (.vWrite .w16) w8) ∧
    step (at3 (.vWrite .w16) w8) = .next (after (at3 (.vWrite .w16) w8)) ∧ (after (at3 (.vWrite .w16) w8)).width = .w16 :=
  ⟨by decide, rfl, rfl⟩
theorem witness_ConfigurationGivesNoError : inConfiguration (at3 .cCtrl w8).seq = true ∧ (at3 .cCtrl w8).resp = .none ∧
    noBlockReset (at3 .cCtrl w8) = true ∧ step (at3 .cCtrl w8) = .next (after (at3 .cCtrl w8)) ∧
    inConfiguration (at3 .eWrite w8).seq = true ∧ (at3 .eWrite w8).resp = .none ∧
    noBlockReset (at3 .eWrite w8) = true ∧ step (at3 .eWrite w8) = .next (after (at3 .eWrite w8)) :=
  ⟨rfl, rfl, rfl, rfl, rfl, rfl, rfl, rfl⟩

/-- Inv holds in the reset state, which steps (here: waits). Witness for StepKeepsInvariant, LifecycleTransitions,
CursorsStayOrdered and StepAlwaysAnswers. -/
theorem witness_Inv_reset : Inv State.reset ∧ noBlockReset State.reset = true ∧ State.reset.fault = .noFault ∧
    step State.reset = .next State.reset ∧ runSteps 0 State.reset = .next State.reset :=
  ⟨⟨reset_memory_wf, trivial, trivial, trivial, trivial, .inl rfl, .inl rfl, .inl rfl, .inl rfl, .inl rfl⟩, rfl, rfl, rfl, rfl⟩
/-- Inv holds with a live handle: FieldsMatchHandle, with a run of no steps. -/
theorem witness_Inv_handle : Inv w8 ∧ runSteps 0 w8 = .next w8 ∧ w8.seq = .idle ∧ w8.own = .bound ∧
    w8.roleEnableOpen = false :=
  ⟨⟨by decide, trivial, trivial, trivial, trivial, .inr ⟨rfl, .inr rfl⟩, .inl rfl, .inl rfl,
    .inr ⟨⟨rfl, rfl, rfl, rfl, rfl, rfl⟩, rfl, .inr rfl⟩, .inr ⟨rfl, rfl⟩⟩, rfl, rfl, rfl, rfl⟩
/-- Inv holds in a micro-state of XFER8 that steps: the three clauses of LifecycleTransitions' last case and of
CursorsStayOrdered's first. -/
theorem witness_Inv_transfer : Inv (at3 .x8Fill w8) ∧ inXfer8 (at3 .x8Fill w8).seq = true ∧
    runSteps 1 (at3 .x8Fill w8) = .next (after (at3 .x8Fill w8)) :=
  ⟨⟨by decide, ⟨by decide, by decide⟩, trivial, Nat.le_refl 0, rfl, ⟨rfl, .inr rfl⟩, .inr rfl, .inl rfl,
    ⟨⟨rfl, rfl, rfl, rfl, rfl, rfl⟩, rfl, .inr rfl⟩, ⟨rfl, rfl⟩⟩, rfl, rfl⟩
/-- The same in XFER16 with an element outstanding, the second clause of CursorsStayOrdered. -/
theorem witness_Inv_xfer16 : Inv (at3 .x16Store w16) ∧ inXfer16 (at3 .x16Store w16).seq = true ∧
    runSteps 0 (at3 .x16Store w16) = .next (at3 .x16Store w16) :=
  ⟨⟨by decide, ⟨by decide, by decide⟩, trivial, trivial, rfl, ⟨rfl, .inr rfl⟩, .inr rfl, .inl rfl,
    ⟨⟨rfl, rfl, rfl, rfl, rfl, rfl⟩, rfl, .inr rfl⟩, ⟨rfl, rfl⟩⟩, rfl, rfl⟩
/-- The same in WR8 with one credit left, the third clause of CursorsStayOrdered. -/
theorem witness_Inv_wr8 : Inv (at3 .w8Send w8) ∧ inWrite (at3 .w8Send w8).seq = true ∧
    runSteps 0 (at3 .w8Send w8) = .next (at3 .w8Send w8) :=
  ⟨⟨by decide, show (2#32).toNat < (3#32).toNat by decide, ⟨by decide, by decide⟩, trivial, rfl, ⟨rfl, .inr rfl⟩, .inr rfl, .inl rfl,
    ⟨⟨rfl, rfl, rfl, rfl, rfl, rfl⟩, rfl, .inr rfl⟩, ⟨rfl, rfl⟩⟩, rfl, rfl⟩
/-- The faulted state that CFGC with a rate of 0 ends in (R226). -/
def faulted : State :=
  { free with
    own := .bound, cfg := .disabledConfiguring, freq := 0#32, clkEn := true, seq := .cCtrl, fault := .divisorUndefined }
/-- Inv holds in the faulted state: OnlyTheSequencerFaultStops and FaultIsSticky, its first clause. -/
theorem witness_Inv_faulted : Inv faulted ∧ NoResetToCome faulted ∧ step faulted = .fault .divisorUndefined :=
  ⟨⟨by decide, trivial, trivial, trivial, trivial, ⟨rfl, rfl, rfl⟩, .inr rfl, .inr ⟨rfl, by decide⟩, ⟨rfl, rfl, rfl⟩,
    ⟨rfl, rfl⟩⟩, rfl, rfl⟩
/-- The second clause of FaultIsSticky, and the first of BlockResetComesAnyTime, with a reset that is due at once and with one
that a faulted sequencer does not wait for. -/
theorem witness_FaultIsSticky_reset : ({ faulted with resets := [0] } : State).resets = 0 :: [] ∧
    ({ faulted with resets := [7, 1] } : State).resets = 7 :: [1] ∧ resetDue { faulted with resets := [7, 1] } = true ∧
    resetDue { w8 with resets := [0] } = true := by decide
/-- The second clause of BlockResetComesAnyTime. -/
theorem witness_BlockResetComesAnyTime :
    step (at3 .x8FillSend w8) = .next (after (at3 .x8FillSend w8)) ∧ NoResetToCome (at3 .x8FillSend w8) ∧
    (at3 .x8FillSend w8).fault = .noFault := ⟨rfl, rfl, rfl⟩
/-- `s` over an environment that stays busy (BSY alone) and whose level stays "full or fuller", for two reads of each. -/
def busy (s : State) : State :=
  { s with env := .script [unpackStatus 0x0080#16, unpackStatus 0x0080#16] [] [3#2, 3#2], resets := [2] }
/-- Its third clause, in each place where R233 lets a command stay, with the block reset two steps away. -/
theorem witness_BlockResetComesAnyTime_stuck :
    (∀ q ∈ [Seq.x8Main, .x8Fill, .x8FillPoll, .x8ReadPoll, .x16SendPoll, .x16RecvPoll, .w8InitPoll, .w16Poll, .w8FinalPoll,
      .w16FinalPoll, .w8CapRead],
      stuckFor 2 (at3 q (busy w8)) ∧ (at3 q (busy w8)).fault = .noFault ∧ (at3 q (busy w8)).resets = 2 :: []) ∧
    stuckFor 2 (at3 .x8DrainPoll { busy w8 with drainRetries := .infinite }) ∧
    stuckFor 2 { at3 .w8Cap (busy w8) with cap := 0#3 } := by
  refine ⟨?_, ⟨rfl, rfl⟩, rfl, rfl⟩
  simp only [List.forall_mem_cons]
  exact ⟨⟨⟨by decide, rfl⟩, rfl, rfl⟩, ⟨⟨by decide, rfl⟩, rfl, rfl⟩, ⟨⟨by decide, rfl⟩, rfl, rfl⟩, ⟨⟨by decide, rfl⟩, rfl, rfl⟩,
    ⟨rfl, rfl, rfl⟩, ⟨rfl, rfl, rfl⟩, ⟨rfl, rfl, rfl⟩, ⟨rfl, rfl, rfl⟩, ⟨rfl, rfl, rfl⟩, ⟨rfl, rfl, rfl⟩, ⟨rfl, rfl, rfl⟩,
    by simp⟩
/-- The same over ENV-STALL, for any number of steps: a receive poll never answered. -/
theorem witness_BlockResetComesAnyTime_stall (k : Nat) : stuckFor k { at3 .x16RecvPoll w16 with env := .stall } := by
  change statusesFor (blocks .recv) k .stall _ = true
  generalize ({ at3 .x16RecvPoll w16 with env := .stall } : State).draws = d
  induction k generalizing d with
  | zero => rfl
  | succ k ih => rw [statusesFor, show blocks .recv (envStatus .stall d) = true from rfl]; exact ih _

/-- DivisorClosedForm at both ends of every bucket (the ratio is `f_in` at `f_req` = 1), and at equal rates. -/
theorem witness_DivisorClosedForm : (∀ r ∈ [1, 2, 3, 5, 6, 11, 12, 23, 24, 47, 48, 95, 96, 191, 192, 4294967295],
    0 < (1#32).toNat ∧ (1#32).toNat ≤ (BitVec.ofNat 32 r).toNat) ∧ 0 < (7#32).toNat ∧ (7#32).toNat ≤ (7#32).toNat := by
  simp
/-- Ratio 5 to ratio 6 by a faster clock, ratio 5 to ratio 9 with a slower clock, and equal ratios. -/
theorem witness_DivisorMonotone :
    (divisor 10#32 2#32 = some 1#3 ∧ divisor 12#32 2#32 = some 2#3 ∧ (10#32).toNat * (2#32).toNat ≤ (12#32).toNat * (2#32).toNat) ∧
    (divisor 9#32 1#32 = some 2#3 ∧ (10#32).toNat * (1#32).toNat ≤ (9#32).toNat * (2#32).toNat) ∧
    (divisor 5#32 1#32 = some 1#3 ∧ (10#32).toNat * (1#32).toNat ≤ (5#32).toNat * (2#32).toNat) := by decide
theorem witness_DivisorIsLeastWithinRate :
    divisor 16000000#32 4000000#32 = some 1#3 ∧ ¬rateExceeds 16000000#32 4000000#32 1#3 ∧ 0#3 < 1#3 := by
  unfold rateExceeds
  decide
/-- Each clause of PollTruthTable. -/
theorem witness_PollTruthTable : (unpackStatus 0x0062).ovr = true ∧
    ((unpackStatus 0x0022).ovr = false ∧ (unpackStatus 0x0022).modf = true) ∧
    ((unpackStatus 0x0002).txe = true ∧ (unpackStatus 0x0002).bsy = false ∧ (unpackStatus 0x0002).rxne = false) ∧
    ((unpackStatus 0x0082).txe = true ∧ (unpackStatus 0x0082).bsy = true) ∧
    ((unpackStatus 0x0001).txe = false ∧ (unpackStatus 0x0001).rxne = true) := by decide

/-- PollFaultEndsCommand, its first clause, in each micro-state whose poll propagates a fault. -/
theorem witness_PollFaultEndsCommand_overrun :
    ∀ q ∈ [Seq.x8FillPoll, .x8ReadPoll, .x8DrainPoll, .x16SendPoll, .x16RecvPoll, .w8InitPoll, .w16Poll],
      (at3 q (shows 0x0062 0 w8)).fault = .noFault ∧ propagatingPoll (at3 q (shows 0x0062 0 w8)).seq = true ∧
      noBlockReset (at3 q (shows 0x0062 0 w8)) = true ∧ (envStatus (at3 q (shows 0x0062 0 w8)).env 0).ovr = true := by
  simp only [List.forall_mem_cons]
  exact ⟨⟨rfl, rfl, rfl, rfl⟩, ⟨rfl, rfl, rfl, rfl⟩, ⟨rfl, rfl, rfl, rfl⟩, ⟨rfl, rfl, rfl, rfl⟩, ⟨rfl, rfl, rfl, rfl⟩,
    ⟨rfl, rfl, rfl, rfl⟩, ⟨rfl, rfl, rfl, rfl⟩, by simp⟩
/-- PollFaultEndsCommand, its second clause. -/
theorem witness_PollFaultEndsCommand_modeFault :
    (at3 .w16Poll (shows 0x0022 0 w16)).fault = .noFault ∧ propagatingPoll (at3 .w16Poll (shows 0x0022 0 w16)).seq = true ∧
    noBlockReset (at3 .w16Poll (shows 0x0022 0 w16)) = true ∧
    (envStatus (at3 .w16Poll (shows 0x0022 0 w16)).env 0).ovr = false ∧
    (envStatus (at3 .w16Poll (shows 0x0022 0 w16)).env 0).modf = true := ⟨rfl, rfl, rfl, rfl, rfl⟩
/-- BlockingPollRepeats, for both bits and for a final poll. -/
theorem witness_BlockingPollRepeats : ∀ p ∈ [(Seq.x16SendPoll, PollKind.send), (.x16RecvPoll, .recv), (.w16FinalPoll, .send)],
      blocksOn (at3 p.1 (shows 0x0080 0 w8)).seq = some p.2 ∧ (at3 p.1 (shows 0x0080 0 w8)).fault = .noFault ∧
      noBlockReset (at3 p.1 (shows 0x0080 0 w8)) = true ∧
      poll p.2 (envStatus (at3 p.1 (shows 0x0080 0 w8)).env 0) = .wouldBlock := by
  simp only [List.forall_mem_cons]
  exact ⟨⟨rfl, rfl, rfl, rfl⟩, ⟨rfl, rfl, rfl, rfl⟩, ⟨rfl, rfl, rfl, rfl⟩, by simp⟩
/-- FinalPollIgnoresFaults: with OVR, with MODF, and Ready. -/
theorem witness_FinalPollIgnoresFaults :
    ((at3 .w8FinalPoll (shows 0x0042 0 w8)).fault = .noFault ∧ noBlockReset (at3 .w8FinalPoll (shows 0x0042 0 w8)) = true) ∧
    poll .send (envStatus (at3 .w8FinalPoll (shows 0x0042 0 w8)).env 0) ≠ .wouldBlock ∧
    poll .send (envStatus (at3 .w8FinalPoll (shows 0x0022 0 w8)).env 0) ≠ .wouldBlock ∧
    poll .send (envStatus (at3 .w16FinalPoll (shows 0x0002 0 w16)).env 0) ≠ .wouldBlock :=
  ⟨⟨rfl, rfl⟩, by decide, by decide, by decide⟩
/-- ReadPhasePollsFirst: in each of its two micro-states, with the readiness bit. -/
theorem witness_ReadPhasePollsFirst_ready : ∀ q ∈ [Seq.x8ReadPoll, .x8FillPoll],
    (at3 q (shows 0x0003 0 w8)).fault = .noFault ∧ noBlockReset (at3 q (shows 0x0003 0 w8)) = true ∧
      (at3 q (shows 0x0003 0 w8)).seq = q ∧ (envStatus (at3 q (shows 0x0003 0 w8)).env 0).ovr = false ∧
      (envStatus (at3 q (shows 0x0003 0 w8)).env 0).modf = false := by
  simp only [List.forall_mem_cons]
  exact ⟨⟨rfl, rfl, rfl, rfl, rfl⟩, ⟨rfl, rfl, rfl, rfl, rfl⟩, by simp⟩
/-- The same without it. -/
theorem witness_ReadPhasePollsFirst_blocked : ∀ q ∈ [Seq.x8ReadPoll, .x8FillPoll],
    (at3 q (shows 0x0080 0 w8)).fault = .noFault ∧ noBlockReset (at3 q (shows 0x0080 0 w8)) = true ∧
      (at3 q (shows 0x0080 0 w8)).seq = q ∧ (envStatus (at3 q (shows 0x0080 0 w8)).env 0).ovr = false ∧
      (envStatus (at3 q (shows 0x0080 0 w8)).env 0).modf = false := by
  simp only [List.forall_mem_cons]
  exact ⟨⟨rfl, rfl, rfl, rfl, rfl⟩, ⟨rfl, rfl, rfl, rfl, rfl⟩, by simp⟩
/-- TransmitCapacity, its step clauses: a level read, and W8_CAP with credit and without. -/
theorem witness_TransmitCapacity : (at3 .w8CapRead (shows 0 2#2 w8)).fault = .noFault ∧
    noBlockReset (at3 .w8CapRead (shows 0 2#2 w8)) = true ∧ (at3 .w8CapRead w8).seq = .w8CapRead ∧
    (at3 .w8Cap w8).seq = .w8Cap ∧ (at3 .w8Cap w8).cap ≠ 0#3 ∧ ({ at3 .w8Cap w8 with cap := 0#3 } : State).cap = 0#3 := by
  decide
/-- DrainLoopIsBounded: the last try allowed, none left, and no bound; and Ready. -/
theorem witness_DrainLoopIsBounded :
    poll .recv (envStatus (shows 0x0002 0 (at3 .x8DrainPoll w8)).env 0) = .wouldBlock ∧
    (shows 0x0002 0 (at3 .x8DrainPoll w8)).fault = .noFault ∧ noBlockReset (shows 0x0002 0 (at3 .x8DrainPoll w8)) = true ∧
    (at3 .x8DrainPoll { w8 with drainRetries := .finite 1 }).tries < 1 ∧ 0 ≤ (at3 .x8DrainPoll w8).tries ∧
    (at3 .x8DrainPoll { w8 with drainRetries := .infinite }).drainRetries = .infinite ∧
    poll .recv (envStatus (shows 0x0003 0 (at3 .x8DrainPoll w8)).env 0) = .ready := by decide
theorem witness_FinalCheckLooksAtOverrunOnly :
    (envStatus (shows 0x0042 0 (at3 .x8Final w8)).env 0).ovr = true ∧
    (envStatus (shows 0x0022 0 (at3 .x8Final w8)).env 0).ovr = false ∧
    noBlockReset (shows 0x0022 0 (at3 .x8Final w8)) = true ∧ (at3 .x8Final w8).fault = .noFault := by decide

/-- ByteLoopbackCompletes, HalfwordLoopbackCompletes and SendOnlyCompletes, with an empty buffer and with the longest. -/
theorem witness_Loopback : ReadyHandle w8 ∧ ReadyHandle w16 ∧ w8.width = .w8 ∧ w16.width = .w16 ∧ NoResetToCome w8 ∧
    NoResetToCome w16 ∧ 0 < 2 ^ 32 ∧ 2 ^ 32 - 1 < 2 ^ 32 ∧ w8.env = .loop0 [] ∧ w16.env = .loop0 [] := by decide
/-- A run of one element to its end, for each of the four guarantees: XFER8 in 12 steps. -/
theorem witness_ByteExchangeGuarantee :
    endsIn 12 { w8 with seq := .x8Setup, n := 1#32 } = some (.idle, .ok) := by decide
/-- TransferLogDiscipline: an unfinished run of each transfer, and the premises. -/
theorem witness_TransferLogDiscipline :
    (({ w8 with seq := .x8Setup, n := 1#32 } : State).outside = [] ∧ w8.fault = .noFault) ∧
    endsIn 8 { w8 with seq := .x8Setup, n := 1#32 } = some (.x8ReadPoll, .none) ∧
    endsIn 6 { w16 with seq := .x16Setup, n := 1#32 } = some (.x16Test, .none) ∧
    ({ w8 with seq := .w8Setup, n := 1#32 } : State).cap = 0#3 ∧
    endsIn 7 { w8 with seq := .w8Setup, n := 1#32 } = some (.w8Test, .none) := by decide
theorem witness_HalfwordExchangeGuarantee :
    endsIn 7 { w16 with seq := .x16Setup, n := 1#32 } = some (.idle, .ok) := by decide
theorem witness_SendOnlyGuarantee_w8 :
    endsIn 9 { w8 with seq := .w8Setup, n := 1#32 } = some (.idle, .ok) := by decide
/-- WR16 with credit that an earlier WR8 has left. -/
theorem witness_SendOnlyGuarantee_w16 :
    endsIn 6 { w16 with seq := .w16Setup, n := 1#32, cap := 3#3 } = some (.idle, .ok) := by decide
/-- SendStep: in each of its four micro-states a send of the last element, in WR8 with the last credit. -/
theorem witness_SendStep : ∀ q ∈ [Seq.x8FillSend, .x16Send, .w8Send, .w16Send],
    (at3 q w8).seq = q ∧ (at3 q w8).fault = .noFault ∧ noBlockReset (at3 q w8) = true ∧
      (at3 q w8).wpos.toNat < (at3 q w8).n.toNat ∧ (at3 q w8).cap ≠ 0#3 := by
  simp [at3, w8, free, noBlockReset, resetDue]
/-- StoreStep: in each of its three micro-states, the last element. -/
theorem witness_StoreStep : ∀ q ∈ [Seq.x8ReadStore, .x8DrainStore, .x16Store],
    ({ at3 q w8 with rpos := 2#32 } : State).seq = q ∧ (at3 q w8).fault = .noFault ∧ noBlockReset (at3 q w8) = true ∧
      ({ at3 q w8 with rpos := 2#32 } : State).rpos.toNat < (at3 q w8).n.toNat := by
  simp [at3, w8, free, noBlockReset, resetDue]
theorem witness_OneTransactionPerPort : step (at3 .x8FillSend w8) = .next (after (at3 .x8FillSend w8)) := rfl

end Sys2Proof.Tests
end

section
/-! PROOFS. The state after reset, and how the invariant is put together: of a state at rest with no handle, of one at rest
with a live handle, of one inside a transfer, and of any other one. -/

namespace Sys2Proof.Machine

/-! ## The parts of the invariant that speak of transfers only -/

/-- The cursors, the credit, the tries and the width of the running transfer. -/
structure PositionOk (s : State) : Prop where
  cursors : CursorsOk s
  credit : CreditOk s
  tries : TriesOk s
  width : WidthOk s

theorem Inv.position {s : State} (h : Inv s) : PositionOk s := ⟨h.cursors, h.credit, h.tries, h.width⟩

/-- Outside the transfers no cursor, credit, try or width is bounded. -/
theorem positionOk_of_not_inTransfer {s : State} (h : inTransfer s.seq = false) : PositionOk s := by
  constructor <;> simp only [CursorsOk, CreditOk, TriesOk, WidthOk] <;> cases hq : s.seq <;> rw [hq] at h <;> trivial

/-! ## A handle at work -/

/-- What the invariant says of a live handle outside construction and RST, whatever the micro-state: canonical memory, a
lifecycle state of a bound handle, the control fields the image of the handle, clock gate on and reset line released. -/
structure Live (s : State) : Prop where
  memory : MemoryOk s
  ready : BoundReady s
  image : HandleImage s
  ports : s.clkEn = true ∧ s.rstLine = false

/-- The micro-states of ENA, DIS, TO8, TO16 and REL (10_state R23). -/
def inShort : Seq → Bool
  | .eWrite | .dWrite | .vWrite _ | .lRel => true
  | _ => false

/-- The micro-states of a live handle at work, outside construction and RST. -/
def atWork (q : Seq) : Bool := inShort q || inTransfer q

theorem atWork_of_inShort {q : Seq} (h : inShort q = true) : atWork q = true := by simp [atWork, h]

theorem atWork_of_inTransfer {q : Seq} (h : inTransfer q = true) : atWork q = true := by simp [atWork, h]

theorem lifecycleOk_iff_of_atWork {s : State} (h : atWork s.seq = true) : LifecycleOk s ↔ BoundReady s := by
  unfold LifecycleOk
  cases hq : s.seq <;> rw [hq] at h <;> trivial

theorem fieldsOk_iff_of_atWork {s : State} (h : atWork s.seq = true) : FieldsOk s ↔ HandleImage s := by
  unfold FieldsOk
  cases hq : s.seq <;> rw [hq] at h <;> trivial

theorem portOk_iff_of_atWork {s : State} (h : atWork s.seq = true) :
    PortOk s ↔ s.clkEn = true ∧ s.rstLine = false := by
  unfold PortOk
  cases hq : s.seq <;> rw [hq] at h <;> trivial

theorem Inv.live {s : State} (h : Inv s) (hq : atWork s.seq = true) : Live s :=
  ⟨h.memory, (lifecycleOk_iff_of_atWork hq).1 h.lifecycle, (fieldsOk_iff_of_atWork hq).1 h.fields,
    (portOk_iff_of_atWork hq).1 h.ports⟩

theorem inv_of_live {s : State} (hl : Live s) (hq : atWork s.seq = true) (hr : s.resp = .none) (hf : s.fault = .noFault)
    (hp : PositionOk s) : Inv s :=
  ⟨hl.memory, hp.cursors, hp.credit, hp.tries, hp.width, (lifecycleOk_iff_of_atWork hq).2 hl.ready, .inr hr, .inl hf,
    (fieldsOk_iff_of_atWork hq).2 hl.image, (portOk_iff_of_atWork hq).2 hl.ports⟩

/-! ## Idle -/

theorem inv_of_free {s : State} (hq : s.seq = .idle) (ho : s.own = .free) (hf : s.fault = .noFault) (hm : MemoryOk s) :
    Inv s := by
  obtain ⟨hc, hcr, ht, hw⟩ := positionOk_of_not_inTransfer (s := s) (by rw [hq]; rfl)
  refine ⟨hm, hc, hcr, ht, hw, ?_, .inl hq, .inl hf, ?_, ?_⟩
  · simp only [LifecycleOk, hq]; exact .inl ho
  · simp only [FieldsOk, hq]; exact .inl ho
  · simp only [PortOk, hq]; exact .inl ho

theorem inv_of_live_idle {s : State} (hl : Live s) (hq : s.seq = .idle) (hf : s.fault = .noFault) : Inv s := by
  obtain ⟨hc, hcr, ht, hw⟩ := positionOk_of_not_inTransfer (s := s) (by rw [hq]; rfl)
  refine ⟨hl.memory, hc, hcr, ht, hw, ?_, .inl hq, .inl hf, ?_, ?_⟩
  · simp only [LifecycleOk, hq]; exact .inr hl.ready
  · simp only [FieldsOk, hq]; exact .inr hl.image
  · simp only [PortOk, hq]; exact .inr hl.ports

/-- In Idle a bound handle is live. -/
theorem Inv.live_of_bound {s : State} (h : Inv s) (hq : s.seq = .idle) (ho : s.own = .bound) : Live s := by
  obtain ⟨hm, -, -, -, -, hl, -, -, hf, hp⟩ := h
  simp only [LifecycleOk, FieldsOk, PortOk, hq, ho, reduceCtorEq, false_or] at hl hf hp
  exact ⟨hm, hl, hf, hp⟩

/-! ## Reset -/

/-- Settles O54: each register as `State.reset` writes it. -/
theorem resetState : Obligations.ResetState := ⟨rfl, rfl, rfl, rfl, rfl⟩

/-- Settles O53: after reset no handle is live, and the buffer has no recorded byte. -/
theorem resetMeetsInvariant : Obligations.ResetMeetsInvariant := inv_of_free rfl rfl rfl reset_memory_wf

end Sys2Proof.Machine
end

section
/-! PROOFS. The frame of a live handle: what every step of a transfer but its first and every acceptance but a construction's
leaves, one rule per shared operation. The first step of a transfer sets the direction fields and leaves the rest. -/

namespace Sys2Proof.Machine

/-- `t` comes from `s` without a change to the lifecycle, the tags, group 2, the clock gate, the reset line or the fault; in
group 1 only MSTR and EN differ, after ModeFault (10_state R21, R28, R30; 41_config R147; 93 U9). -/
structure HandleFrame (s t : State) : Prop where
  own : t.own = s.own := by rfl
  cfg : t.cfg = s.cfg := by rfl
  role : t.role = s.role := by rfl
  cpol : t.cpol = s.cpol := by rfl
  cpha : t.cpha = s.cpha := by rfl
  width : t.width = s.width := by rfl
  ctrl2 : t.ctrl2 = s.ctrl2 := by rfl
  clkEn : t.clkEn = s.clkEn := by rfl
  rstLine : t.rstLine = s.rstLine := by rfl
  fault : t.fault = s.fault := by rfl
  group1 : t.ctrl1 = { s.ctrl1 with mstr := t.ctrl1.mstr, en := t.ctrl1.en } := by rfl
  enable : t.roleEnableOpen = true ∨ (t.roleEnableOpen = s.roleEnableOpen ∧ t.ctrl1.en = s.ctrl1.en) := by
    exact .inr ⟨rfl, rfl⟩
  memory : MemoryOk s → MemoryOk t := by exact id

namespace HandleFrame

theorem trans {s u t : State} (h : HandleFrame s u) (k : HandleFrame u t) : HandleFrame s t where
  own := k.own.trans h.own
  cfg := k.cfg.trans h.cfg
  role := k.role.trans h.role
  cpol := k.cpol.trans h.cpol
  cpha := k.cpha.trans h.cpha
  width := k.width.trans h.width
  ctrl2 := k.ctrl2.trans h.ctrl2
  clkEn := k.clkEn.trans h.clkEn
  rstLine := k.rstLine.trans h.rstLine
  fault := k.fault.trans h.fault
  group1 := by rw [k.group1, h.group1]
  enable := k.enable.elim .inl fun ⟨ko, ke⟩ => h.enable.imp ko.trans fun ⟨ho, he⟩ => ⟨ko.trans ho, ke.trans he⟩
  memory := k.memory ∘ h.memory

/-- The frame keeps a live handle live. -/
theorem live {s t : State} (h : HandleFrame s t) (hl : Live s) : Live t where
  memory := h.memory hl.memory
  ready := by rw [BoundReady, h.own, h.cfg]; exact hl.ready
  image := by
    obtain ⟨hg, h2, he⟩ := hl.image
    refine ⟨?_, ?_, ?_⟩
    · rw [Group1Agrees, h.group1, h.cpol, h.cpha, h.role]; exact hg
    · rw [h.ctrl2, h.width]; exact h2
    · rcases h.enable with ho | ⟨ho, hen⟩
      · exact .inl ho
      · rw [EnableAgrees, ho, hen, h.cfg]; exact he
  ports := by rw [h.clkEn, h.rstLine]; exact hl.ports

/-! ## One rule per operation -/

protected theorem goto (q : Seq) (s : State) : HandleFrame s (goto q s) := {}

protected theorem finish (r : Resp) (s : State) : HandleFrame s (finish r s) := {}

protected theorem reject (s : State) : HandleFrame s (reject s) := {}

protected theorem snapshot (s : State) : HandleFrame s (snapshot s) := {}

protected theorem writeElem (w : Width) (i : Word) (v : Half) (s : State) :
    HandleFrame s { s with mem := writeElem w s.mem i.toNat v } where
  memory h := writeElem_wf v h i.isLt

protected theorem unspecify (lo hi : Nat) (s : State) : HandleFrame s { s with mem := unspecify lo hi s.mem } where
  memory := unspecify_wf lo hi

protected theorem openRoleEnable (s : State) : HandleFrame s (openRoleEnable s) where
  enable := .inl rfl

protected theorem respondError (r : Resp) (s : State) : HandleFrame s (respondError r s) := by
  rcases respondError_cases r s with ⟨-, e⟩ | ⟨-, e⟩ <;> rw [e]
  · exact .finish r s
  · exact (HandleFrame.openRoleEnable s).trans (.finish _ _)

protected theorem failTransfer (w : Width) (r : Resp) (s : State) : HandleFrame s (failTransfer w r s) :=
  (HandleFrame.unspecify _ _ s).trans (.respondError r _)

protected theorem failLate (w : Width) (s : State) : HandleFrame s (failLate w s) :=
  (HandleFrame.unspecify _ _ s).trans (.respondError _ _)

protected theorem pollThen {kind : PollKind} {f g : State → State} {e : Resp → State → State}
    (hf : ∀ s, HandleFrame s (f s)) (hg : ∀ s, HandleFrame s (g s)) (he : ∀ r s, HandleFrame s (e r s)) (s : State) :
    HandleFrame s (pollThen kind f g e s) := by
  refine (HandleFrame.snapshot s).trans ?_
  rcases pollThen_cases kind f g e s with ⟨-, p⟩ | ⟨-, p⟩ | ⟨-, p⟩ | ⟨-, p⟩ <;> rw [p]
  · exact hf _
  · exact hg _
  · exact he _ _
  · exact he _ _

protected theorem sendElem {w : Width} {q : Seq} {s t : State} (h : sendElem w q s = .next t) : HandleFrame s t := by
  obtain ⟨-, rfl⟩ := sendElem_next h
  exact {}

protected theorem storeElem {w : Width} {q : Seq} {s t : State} (h : storeElem w q s = .next t) : HandleFrame s t := by
  obtain ⟨-, rfl⟩ := storeElem_next h
  exact { memory := (HandleFrame.writeElem w s.rpos (dataValue w s) s).memory }

protected theorem drainBlocked (s : State) : HandleFrame s (drainBlocked s) := by
  unfold drainBlocked
  split
  · exact {}
  · exact .failTransfer _ _ s

end HandleFrame

/-- Group 1 with the direction that the first step of a transfer sets: full-duplex or send-only (10_state R28). -/
def directionSet (q : Seq) (c : Ctrl1) : Ctrl1 :=
  match q with
  | .x8Setup | .x16Setup => { c with bidimode := false }
  | .w8Setup | .w16Setup => { c with bidimode := true, bidioe := true }
  | _ => c

/-- The state with the direction fields as the step of micro-state `q` leaves them. -/
def directed (q : Seq) (s : State) : State := { s with ctrl1 := directionSet q s.ctrl1 }

/-- The image of the handle does not speak of the direction fields. -/
theorem Live.directed {s : State} (h : Live s) (q : Seq) : Live (directed q s) := by
  obtain ⟨hm, hb, hi, hp⟩ := h
  refine ⟨hm, hb, ?_, hp⟩
  unfold Machine.directed directionSet
  split <;> exact hi

/-- Every micro-step of a transfer keeps the frame, the direction fields apart. -/
theorem transfer_handleFrame {s t : State} (hq : inTransfer s.seq = true) (h : microStep s = .next t) :
    HandleFrame (directed s.seq s) t := by
  unfold microStep at h
  cases e : s.seq <;> simp only [e] at h hq ⊢
  case x8Setup | x16Setup => cases h; rw [regWrite_other rfl]; exact {}
  case w8Setup | w16Setup => cases h; rw [regWrite_other rfl]; exact {}
  case x8Main | x8Fill | x8Drain | w8Test | w8Cap | w16Test => cases h; exact .goto _ s
  case x8FillPoll | x16SendPoll | x16RecvPoll => cases h; exact .pollThen (.goto _) (.goto _) (.failTransfer _) s
  case x8ReadPoll => cases h; exact .pollThen (fun s => .goto _ s) (.goto _) (.failTransfer _) s
  case x8DrainPoll => cases h; exact .pollThen (.goto _) .drainBlocked (.failTransfer _) s
  case w8InitPoll | w16Poll => cases h; exact .pollThen (.goto _) (.goto _) .respondError s
  case w8FinalPoll | w16FinalPoll => cases h; exact .pollThen (.finish _) (.goto _) (fun _ => .finish _) s
  case x8FillSend | x16Send | w16Send => exact .sendElem h
  case w8Send =>
    unfold wr8Send at h
    split at h
    · cases h
    · exact HandleFrame.trans (u := { s with cap := s.cap - 1#3 }) {} (.sendElem h)
  case x8ReadStore | x16Store => exact .storeElem h
  case x8DrainStore => exact HandleFrame.trans (u := { s with tries := 0 }) {} (.storeElem h)
  case w8CapRead => cases h; exact {}
  case x8Final =>
    cases h
    refine (HandleFrame.snapshot s).trans ?_
    split
    · exact .failLate _ _
    · exact .finish _ _
  case x16Test =>
    cases h
    split
    · exact .goto _ s
    · exact .finish _ s
  all_goals cases hq

end Sys2Proof.Machine
end

section
/-! PROOFS. Where a transfer stands after each of its micro-steps (43_transfer R171 to R175, R180; 44_write R201 to R204, R208):
it has ended, or its cursors, credit, tries and width are those of the next micro-state. -/

namespace Sys2Proof.Machine

/-- The transfer has ended in `t`, or runs on: the response is as before and `t` meets the bounds of its micro-state. -/
def RunsOn (s t : State) : Prop := t.seq = .idle ∨ (inTransfer t.seq = true ∧ t.resp = s.resp ∧ PositionOk t)

theorem respondError_seq (r : Resp) (s : State) : (respondError r s).seq = .idle := by
  rcases respondError_cases r s with ⟨-, e⟩ | ⟨-, e⟩ <;> rw [e] <;> rfl

theorem failTransfer_seq (w : Width) (r : Resp) (s : State) : (failTransfer w r s).seq = .idle := respondError_seq r _

/-- A poll runs on if its two fault-free branches do and every fault ends the command (42_fault_detector R167). -/
theorem RunsOn.pollThen {kind : PollKind} {f g : State → State} {e : Resp → State → State} {s : State}
    (hf : RunsOn s (f (snapshot s))) (hg : RunsOn s (g (snapshot s)))
    (he : ∀ r s, (e r s).seq = .idle) : RunsOn s (pollThen kind f g e s) := by
  rcases pollThen_cases kind f g e s with ⟨-, p⟩ | ⟨-, p⟩ | ⟨-, p⟩ | ⟨-, p⟩ <;> rw [p]
  · exact hf
  · exact hg
  · exact .inl (he _ _)
  · exact .inl (he _ _)

/-- One more try is within the bound while tries are left (43_transfer R174). -/
theorem triesWithin_succ {tries : Nat} {d : Retries} (h : retriesLeft tries d = true) : triesWithin (tries + 1) d := by
  cases d with
  | finite k => exact Nat.succ_le_of_lt (of_decide_eq_true h)
  | infinite => trivial

/-- No tries are within every bound. -/
theorem triesWithin_zero (d : Retries) : triesWithin 0 d := by
  cases d with
  | finite k => exact Nat.zero_le k
  | infinite => trivial

/-- The transmit-capacity estimate is at most 4 (42_fault_detector R165). -/
theorem txcap_le_four (level : BitVec 2) : (txcap level).toNat ≤ 4 := by revert level; decide

/-- XFER8: the row of `CursorsOk` after each micro-step (43_transfer R171 to R175). -/
theorem xfer8_runsOn {s t : State} (hq : inXfer8 s.seq = true) (hp : PositionOk s) (h : microStep s = .next t) :
    RunsOn s t := by
  obtain ⟨hc, -, ht, hw⟩ := hp
  unfold microStep at h
  cases e : s.seq <;> simp only [e, CursorsOk, TriesOk, WidthOk] at h hq hc ht hw
  case x8Setup =>
    cases h
    exact .inr ⟨rfl, rfl, hc, trivial, ht, hw⟩
  case x8Main =>
    cases h
    split
    next => exact .inr ⟨rfl, rfl, hc, trivial, ht, hw⟩
    next hlt =>
      rw [BitVec.lt_def] at hlt
      have row : s.rpos.toNat ≤ s.wpos.toNat ∧ s.wpos.toNat = s.n.toNat := by omega
      exact .inr ⟨rfl, rfl, row, trivial, ht, hw⟩
  case x8Fill =>
    cases h
    split
    next hlt => exact .inr ⟨rfl, rfl, ⟨hc.1, BitVec.lt_def.1 hlt⟩, trivial, ht, hw⟩
    next => exact .inr ⟨rfl, rfl, hc, trivial, ht, hw⟩
  case x8FillPoll =>
    cases h
    exact .pollThen (.inr ⟨rfl, rfl, hc, trivial, ht, hw⟩) (.inr ⟨rfl, rfl, ⟨hc.1, hc.2.le⟩, trivial, ht, hw⟩)
      (failTransfer_seq _)
  case x8FillSend =>
    obtain ⟨hlt, rfl⟩ := sendElem_next h
    have hs := cursor_succ hlt
    have row : s.rpos.toNat ≤ (s.wpos + 1#32).toNat ∧ (s.wpos + 1#32).toNat ≤ s.n.toNat := by omega
    exact .inr ⟨rfl, rfl, row, trivial, ht, hw⟩
  case x8ReadPoll =>
    cases h
    refine .pollThen ?_ (.inr ⟨rfl, rfl, hc, trivial, ht, hw⟩) (failTransfer_seq _)
    split
    next hlt => exact .inr ⟨rfl, rfl, ⟨BitVec.lt_def.1 hlt, hc.2⟩, trivial, ht, hw⟩
    next => exact .inr ⟨rfl, rfl, hc, trivial, ht, hw⟩
  case x8ReadStore =>
    obtain ⟨hlt, rfl⟩ := storeElem_next h
    have hs := cursor_succ hlt
    have row : (s.rpos + 1#32).toNat ≤ s.wpos.toNat ∧ s.wpos.toNat ≤ s.n.toNat := by omega
    exact .inr ⟨rfl, rfl, row, trivial, ht, hw⟩
  case x8Drain =>
    cases h
    split
    next hlt =>
      rw [BitVec.lt_def] at hlt
      have row : s.rpos.toNat < s.wpos.toNat ∧ s.wpos.toNat = s.n.toNat := by omega
      exact .inr ⟨rfl, rfl, row, trivial, ht, hw⟩
    next hlt =>
      rw [BitVec.lt_def] at hlt
      have row : s.rpos.toNat = s.wpos.toNat ∧ s.wpos.toNat = s.n.toNat := by omega
      exact .inr ⟨rfl, rfl, row, trivial, ht, hw⟩
  case x8DrainPoll =>
    cases h
    refine .pollThen (.inr ⟨rfl, rfl, hc, trivial, ht, hw⟩) ?_ (failTransfer_seq _)
    unfold drainBlocked
    split
    next hl => exact .inr ⟨rfl, rfl, hc, trivial, triesWithin_succ hl, hw⟩
    next => exact .inl (failTransfer_seq _ _ _)
  case x8DrainStore =>
    obtain ⟨hlt, rfl⟩ := storeElem_next h
    have hs : (s.rpos + 1#32).toNat = s.rpos.toNat + 1 := cursor_succ hlt
    have row : (s.rpos + 1#32).toNat ≤ s.wpos.toNat ∧ s.wpos.toNat = s.n.toNat := by omega
    exact .inr ⟨rfl, rfl, row, trivial, triesWithin_zero _, hw⟩
  case x8Final =>
    cases h
    refine .inl ?_
    split
    · exact respondError_seq _ _
    · rfl
  all_goals cases hq

/-- XFER16 likewise (43_transfer R180). -/
theorem xfer16_runsOn {s t : State} (hq : inXfer16 s.seq = true) (hp : PositionOk s) (h : microStep s = .next t) :
    RunsOn s t := by
  obtain ⟨hc, -, -, hw⟩ := hp
  unfold microStep at h
  cases e : s.seq <;> simp only [e, CursorsOk, WidthOk] at h hq hc hw
  case x16Setup =>
    cases h
    exact .inr ⟨rfl, rfl, hc, trivial, trivial, hw⟩
  case x16Test =>
    cases h
    split
    next hlt => exact .inr ⟨rfl, rfl, ⟨hc.1, BitVec.lt_def.1 hlt⟩, trivial, trivial, hw⟩
    next => exact .inl rfl
  case x16SendPoll =>
    cases h
    exact .pollThen (.inr ⟨rfl, rfl, hc, trivial, trivial, hw⟩) (.inr ⟨rfl, rfl, hc, trivial, trivial, hw⟩)
      (failTransfer_seq _)
  case x16Send =>
    obtain ⟨hlt, rfl⟩ := sendElem_next h
    have hs := cursor_succ hlt
    have row : s.rpos.toNat + 1 = (s.wpos + 1#32).toNat ∧ (s.wpos + 1#32).toNat ≤ s.n.toNat := by omega
    exact .inr ⟨rfl, rfl, row, trivial, trivial, hw⟩
  case x16RecvPoll =>
    cases h
    exact .pollThen (.inr ⟨rfl, rfl, hc, trivial, trivial, hw⟩) (.inr ⟨rfl, rfl, hc, trivial, trivial, hw⟩)
      (failTransfer_seq _)
  case x16Store =>
    obtain ⟨hlt, rfl⟩ := storeElem_next h
    have hs := cursor_succ hlt
    have row : (s.rpos + 1#32).toNat = s.wpos.toNat ∧ s.wpos.toNat ≤ s.n.toNat := by omega
    exact .inr ⟨rfl, rfl, row, trivial, trivial, hw⟩
  all_goals cases hq

/-- WR8 and WR16 likewise, in WR8 with the credit (44_write R201 to R204, R208). -/
theorem write_runsOn {s t : State} (hq : inWrite s.seq = true) (hp : PositionOk s) (h : microStep s = .next t) :
    RunsOn s t := by
  obtain ⟨hc, hcr, -, hw⟩ := hp
  unfold microStep at h
  cases e : s.seq <;> simp only [e, CursorsOk, CreditOk, WidthOk] at h hq hc hcr hw
  case w8Setup =>
    cases h
    exact .inr ⟨rfl, rfl, hc, hcr, trivial, hw⟩
  case w8InitPoll =>
    cases h
    exact .pollThen (.inr ⟨rfl, rfl, hc, hcr, trivial, hw⟩) (.inr ⟨rfl, rfl, hc, hcr, trivial, hw⟩) respondError_seq
  case w8Test =>
    cases h
    split
    next hlt =>
      rw [BitVec.lt_def] at hlt
      exact .inr ⟨rfl, rfl, hlt, hcr, trivial, hw⟩
    next hlt =>
      rw [BitVec.lt_def] at hlt
      exact .inr ⟨rfl, rfl, hc.antisymm (Nat.le_of_not_lt hlt), hcr, trivial, hw⟩
  case w8Cap =>
    cases h
    split
    next => exact .inr ⟨rfl, rfl, hc, hcr, trivial, hw⟩
    next h0 =>
      have hpos : 1 ≤ s.cap.toNat := Nat.pos_of_ne_zero fun h => h0 (BitVec.eq_of_toNat_eq h)
      exact .inr ⟨rfl, rfl, hc, ⟨hpos, hcr⟩, trivial, hw⟩
  case w8CapRead =>
    cases h
    exact .inr ⟨rfl, rfl, hc, txcap_le_four _, trivial, hw⟩
  case w8Send =>
    unfold wr8Send at h
    split at h
    · cases h
    · obtain ⟨hlt, rfl⟩ := sendElem_next h
      have hs : (s.wpos + 1#32).toNat = s.wpos.toNat + 1 := cursor_succ hlt
      have row : (s.wpos + 1#32).toNat ≤ s.n.toNat := by omega
      have credit : (s.cap - 1#3).toNat ≤ 4 := by bv_omega
      exact .inr ⟨rfl, rfl, row, credit, trivial, hw⟩
  case w8FinalPoll =>
    cases h
    exact .pollThen (.inl rfl) (.inr ⟨rfl, rfl, hc, hcr, trivial, hw⟩) fun _ _ => rfl
  case w16Setup =>
    cases h
    exact .inr ⟨rfl, rfl, hc, trivial, trivial, hw⟩
  case w16Test =>
    cases h
    split
    next hlt =>
      rw [BitVec.lt_def] at hlt
      exact .inr ⟨rfl, rfl, hlt, trivial, trivial, hw⟩
    next hlt =>
      rw [BitVec.lt_def] at hlt
      exact .inr ⟨rfl, rfl, hc.antisymm (Nat.le_of_not_lt hlt), trivial, trivial, hw⟩
  case w16Poll =>
    cases h
    exact .pollThen (.inr ⟨rfl, rfl, hc, trivial, trivial, hw⟩) (.inr ⟨rfl, rfl, hc, trivial, trivial, hw⟩)
      respondError_seq
  case w16Send =>
    obtain ⟨hlt, rfl⟩ := sendElem_next h
    have hs := cursor_succ hlt
    have row : (s.wpos + 1#32).toNat ≤ s.n.toNat := by omega
    exact .inr ⟨rfl, rfl, row, trivial, trivial, hw⟩
  case w16FinalPoll =>
    cases h
    exact .pollThen (.inl rfl) (.inr ⟨rfl, rfl, hc, trivial, trivial, hw⟩) fun _ _ => rfl
  all_goals cases hq

theorem transfer_runsOn {s t : State} (hq : inTransfer s.seq = true) (hp : PositionOk s) (h : microStep s = .next t) :
    RunsOn s t := by
  rw [inTransfer, Bool.or_eq_true, Bool.or_eq_true] at hq
  obtain (h8 | h16) | hw := hq
  exacts [xfer8_runsOn h8 hp h, xfer16_runsOn h16 hp h, write_runsOn hw hp h]

/-- A transfer keeps the invariant: the frame keeps the handle live, and the transfer runs on in its bounds or ends. -/
theorem transfer_keeps {s t : State} (hq : inTransfer s.seq = true) (hi : Inv s) (hf : s.fault = .noFault)
    (h : microStep s = .next t) : Inv t := by
  have frame := transfer_handleFrame hq h
  have live := frame.live ((hi.live (atWork_of_inTransfer hq)).directed _)
  have fault := frame.fault.trans hf
  rcases transfer_runsOn hq hi.position h with hidle | ⟨ht, hr, hp⟩
  · exact inv_of_live_idle live hidle fault
  · have hresp : s.resp = .none := hi.response.resolve_left fun hidle => by rw [hidle] at hq; cases hq
    exact inv_of_live live (atWork_of_inTransfer ht) (hr.trans hresp) fault hp

end Sys2Proof.Machine
end

section
/-! PROOFS. The configuration commands keep the invariant (41_config R131 to R134, R137 to R146): construction brings the control
fields to the image of the handle, RST brings them back, the short commands keep a live handle live. -/

namespace Sys2Proof.Machine

/-- Outside the transfers the invariant is the memory, the lifecycle, the response, the fault, the fields and the ports. -/
theorem inv_of_not_inTransfer {s : State} (hq : inTransfer s.seq = false) (hm : MemoryOk s) (hl : LifecycleOk s)
    (hr : ResponseOk s) (hf : FaultOk s) (hi : FieldsOk s) (hp : PortOk s) : Inv s :=
  have ⟨hc, hcr, ht, hw⟩ := positionOk_of_not_inTransfer hq
  ⟨hm, hc, hcr, ht, hw, hl, hr, hf, hi, hp⟩

/-! ## What the control writes leave -/

/-- EN written 0 where every field is 0 already (41_config R132). -/
theorem ctrl1AfterWrite_disable {s : State} (ho : s.roleEnableOpen = false) (h1 : s.ctrl1 = ctrl1AfterPulse) :
    ctrl1AfterWrite [.en false] s = ctrl1AfterPulse := by
  rw [ctrl1AfterWrite_closed ho, h1]; rfl

/-- Group 1 after `C_CTRL` (41_config R132). -/
theorem controllerFields_agree {s : State} {k : BitVec 3} (ho : s.roleEnableOpen = false) (h1 : s.ctrl1 = ctrl1AfterPulse)
    (hr : s.role = .controller) :
    Group1Agrees s (ctrl1AfterWrite (controllerFields s k) s) ∧ (ctrl1AfterWrite (controllerFields s k) s).en = false := by
  rw [ctrl1AfterWrite_closed ho, h1, Group1Agrees, hr]
  exact ⟨⟨rfl, rfl, rfl, rfl, rfl, rfl⟩, rfl⟩

/-- Group 1 after `P_CTRL`: SSI, which it does not write, is 0 from the reset pulse (41_config R137). -/
theorem peripheralFields_agree {s : State} (ho : s.roleEnableOpen = false) (h1 : s.ctrl1 = ctrl1AfterPulse)
    (hr : s.role = .peripheral) :
    Group1Agrees s (ctrl1AfterWrite (peripheralFields s) s) ∧ (ctrl1AfterWrite (peripheralFields s) s).en = false := by
  rw [ctrl1AfterWrite_closed ho, h1, Group1Agrees, hr]
  exact ⟨⟨rfl, rfl, rfl, rfl, rfl, rfl⟩, rfl⟩

/-- Group 1 after `S_REST1` is the saved one but for EN (41_config R144). -/
theorem ctrl1AfterWrite_restoreGroup1 {s : State} (ho : s.roleEnableOpen = false) (c : Ctrl1) :
    ctrl1AfterWrite (restoreGroup1 c) s = { c with en := false } := by
  simp only [ctrl1AfterWrite_closed ho, restoreGroup1, List.foldl, applyCtrl1]

/-- A write of EN that sets `cfg` to match makes the fields the image of the handle (41_config R134, R139, R140). -/
theorem live_of_writeEnable {s : State} {c : Lifecycle} (hm : MemoryOk s) (ho : s.own = .bound)
    (hg : Group1Agrees s s.ctrl1) (h2 : s.ctrl2 = group2Of s.width) (hp : s.clkEn = true ∧ s.rstLine = false)
    (hc : c = .disabledConfigured ∨ c = .enabled) : Live { regWrite [.en (enabledFlag c)] s with cfg := c } where
  memory := hm
  ready := ⟨ho, hc⟩
  image := by
    refine ⟨?_, h2, ?_⟩
    · simpa [Group1Agrees, applyCtrl1] using hg
    · cases h : s.roleEnableOpen
      · exact .inr (congrArg Ctrl1.en (ctrl1AfterWrite_closed h))
      · exact .inl h
  ports := hp

/-- The conversion write brings group 2 to the new width (41_config R141). -/
theorem live_of_convert {s : State} (t : Width) (hl : Live s) :
    Live { regWrite [.ssoe false, .rxth (th t), .dsize (ds t)] s with width := t } := by
  rw [regWrite_other rfl]
  obtain ⟨hm, hb, ⟨hg, -, he⟩, hp⟩ := hl
  exact ⟨hm, hb, ⟨hg, rfl, he⟩, hp⟩

/-! ## Construction -/

theorem construction_keeps {s t : State} (hq : inConstruction s.seq = true) (hi : Inv s) (hf : s.fault = .noFault)
    (h : microStep s = .next t) : Inv t := by
  obtain ⟨hm, -, -, -, -, hl, hr, -, hc, hp⟩ := hi
  have resp : s.resp = .none := hr.resolve_left fun hidle => by rw [hidle] at hq; cases hq
  unfold microStep at h
  cases e : s.seq <;> simp only [e, LifecycleOk, FieldsOk, PortOk] at h hq hl hc hp
  case cClk | pClk => cases h; exact inv_of_not_inTransfer rfl hm hl (.inr resp) (.inl hf) trivial rfl
  case cRstA | pRstA => cases h; exact inv_of_not_inTransfer rfl hm hl (.inr resp) (.inl hf) trivial ⟨hp, rfl⟩
  case cRstD | pRstD =>
    cases h
    exact inv_of_not_inTransfer rfl hm ⟨hl.1, hl.2, rfl⟩ (.inr resp) (.inl hf) ⟨rfl, rfl, rfl⟩ ⟨hp.1, rfl⟩
  case cDis | pDis =>
    obtain ⟨h1, h2, ho⟩ := hc
    cases h
    exact inv_of_not_inTransfer rfl hm ⟨hl.1, hl.2.1, rfl⟩ (.inr resp) (.inl hf)
      ⟨ctrl1AfterWrite_disable ho h1, h2, ho⟩ hp
  case cCtrl =>
    obtain ⟨h1, h2, ho⟩ := hc
    unfold cfgcCtrl at h
    cases d : divisor s.fin s.freq <;> rw [d] at h <;> cases h
    case none =>
      refine inv_of_not_inTransfer ?_ hm ?_ (.inr resp) (.inr ⟨e, d⟩) ?_ ?_ <;>
        simp only [LifecycleOk, FieldsOk, PortOk, raiseFault_seq, e]
      exacts [rfl, hl, ⟨h1, h2, ho⟩, hp]
    case some k =>
      obtain ⟨hg, hen⟩ := controllerFields_agree (k := k) ho h1 hl.2.1
      exact inv_of_not_inTransfer rfl hm hl (.inr resp) (.inl hf) ⟨hg, hen, h2, ho⟩ hp
  case pCtrl =>
    obtain ⟨h1, h2, ho⟩ := hc
    cases h
    obtain ⟨hg, hen⟩ := peripheralFields_agree ho h1 hl.2.1
    exact inv_of_not_inTransfer rfl hm hl (.inr resp) (.inl hf) ⟨hg, hen, h2, ho⟩ hp
  case cWidth | pWidth =>
    obtain ⟨hg, -, h2, ho⟩ := hc
    cases h
    rw [widthStep, regWrite_closed ho, h2]
    exact inv_of_not_inTransfer rfl hm ⟨hl.1, hl.2.1, rfl⟩ (.inr resp) (.inl hf) ⟨hg, rfl, ho⟩ hp
  case cEn | pEn =>
    cases h
    exact inv_of_live_idle ((HandleFrame.finish _ _).live (live_of_writeEnable hm hl.1 hc.1 hc.2.1 hp (.inr rfl))) rfl hf
  all_goals cases hq

/-! ## RST -/

theorem reset_keeps {s t : State} (hq : inReset s.seq = true) (hi : Inv s) (hf : s.fault = .noFault)
    (h : microStep s = .next t) : Inv t := by
  obtain ⟨hm, -, -, -, -, hl, hr, -, hc, hp⟩ := hi
  have resp : s.resp = .none := hr.resolve_left fun hidle => by rw [hidle] at hq; cases hq
  unfold microStep at h
  cases e : s.seq <;> simp only [e, LifecycleOk, FieldsOk, PortOk] at h hq hl hc hp
  case sSave1 => cases h; exact inv_of_not_inTransfer rfl hm hl (.inr resp) (.inl hf) hc hp
  case sSave2 => cases h; exact inv_of_not_inTransfer rfl hm hl (.inr resp) (.inl hf) hc hp
  case sRstA => cases h; exact inv_of_not_inTransfer rfl hm hl (.inr resp) (.inl hf) hc ⟨hp.1, rfl⟩
  case sRstD =>
    cases h
    exact inv_of_not_inTransfer rfl hm hl (.inr resp) (.inl hf) ⟨hc.1, hc.2, rfl, rfl, rfl⟩ ⟨hp.1, rfl⟩
  case sRest1 =>
    obtain ⟨hg, h2, ho, -, -⟩ := hc
    cases h
    have restored := ctrl1AfterWrite_restoreGroup1 ho s.save1
    have agrees : Group1Agrees s (ctrl1AfterWrite (restoreGroup1 s.save1) s) := by rw [restored]; exact hg
    exact inv_of_not_inTransfer rfl hm hl (.inr resp) (.inl hf) ⟨agrees, h2, ho, congrArg Ctrl1.en restored⟩ hp
  case sRest2 =>
    obtain ⟨hg, h2, ho, hen⟩ := hc
    cases h
    rw [regWrite_other rfl, h2]
    exact inv_of_live_idle ⟨hm, ⟨hl.1, .inl rfl⟩, ⟨hg, rfl, .inr hen⟩, hp⟩ rfl hf
  all_goals cases hq

/-! ## The short commands -/

theorem short_keeps {s t : State} (hq : inShort s.seq = true) (hi : Inv s) (hf : s.fault = .noFault)
    (h : microStep s = .next t) : Inv t := by
  have live := hi.live (atWork_of_inShort hq)
  have ⟨hm, ⟨ho, _⟩, ⟨hg, h2, _⟩, hp⟩ := live
  unfold microStep at h
  cases e : s.seq <;> simp only [e] at h hq
  case eWrite =>
    cases h
    exact inv_of_live_idle ((HandleFrame.finish _ _).live (live_of_writeEnable hm ho hg h2 hp (.inr rfl))) rfl hf
  case dWrite =>
    cases h
    exact inv_of_live_idle ((HandleFrame.finish _ _).live (live_of_writeEnable hm ho hg h2 hp (.inl rfl))) rfl hf
  case vWrite w =>
    cases h
    exact inv_of_live_idle ((HandleFrame.finish _ _).live (live_of_convert w live)) rfl hf
  case lRel => cases h; exact inv_of_free rfl rfl hf hm
  all_goals cases hq

end Sys2Proof.Machine
end

section
/-! PROOFS. What a step in Idle can do (30_encoding R96; 60_exceptions R240), said once; with it the invariant of every step and of
every run. -/

namespace Sys2Proof.Machine

/-! ## What a step in Idle can do -/

/-- The four things a step in Idle can do: leave SPIC in Idle with its handle as it is (it waits, rejects a command, or the host
stores an element, or the clock changes); begin a construction; begin another command; or the host writes control fields. -/
inductive IdleMove (s t : State) : Prop where
  | stays (frame : HandleFrame s t) (group1 : t.ctrl1 = s.ctrl1) (seq : t.seq = .idle) (log : t.log = s.log)
  | constructs (free : s.own = .free) (own : t.own = .bound)
      (seq : t.seq = .cClk ∧ t.role = .controller ∨ t.seq = .pClk ∧ t.role = .peripheral) (resp : t.resp = .none)
      (fault : t.fault = s.fault) (cfg : t.cfg = s.cfg) (mem : t.mem = s.mem)
      (log : t.log = s.log ∨ t.log = s.log ++ [.fIn s.fIn])
  | begins (ready : BoundReady s) (frame : HandleFrame s t) (group1 : t.ctrl1 = s.ctrl1)
      (seq : atWork t.seq = true ∨ t.seq = .sSave1) (resp : t.resp = .none) (position : PositionOk t) (log : t.log = s.log)
  | hostWrites (free : s.own = .free) (own : t.own = .free) (seq : t.seq = .idle) (fault : t.fault = s.fault)
      (cfg : t.cfg = s.cfg) (mem : t.mem = s.mem) (log : t.log = s.log)

/-- Acceptance is a rejection, or what it latches of a lawful command (30_encoding R96). -/
theorem accept_idleMove {lawful : Bool} {latch : State → State} {s t : State}
    (hl : lawful = true → IdleMove s (latch { s with resp := .none })) (h : accept lawful latch s = .next t) :
    IdleMove s t := by
  obtain ⟨-, ⟨lawful, rfl⟩ | ⟨-, rfl⟩⟩ := accept_next h
  · exact hl lawful
  · exact .stays (.reject s) rfl rfl rfl

/-- A command that only goes to its first micro-state. -/
theorem goto_idleMove {q : Seq} {s : State} (hq : atWork q = true ∨ q = .sSave1) (hn : inTransfer q = false)
    (hb : boundReady s = true) : IdleMove s (goto q { s with resp := .none }) :=
  .begins ((boundReady_iff s).1 hb) {} rfl hq rfl (positionOk_of_not_inTransfer hn) rfl

/-- What makes a transfer lawful (30_encoding R97). -/
theorem transfer_lawful {n : Nat} {w : Width} {s : State}
    (h : (fitsArg n && boundReady s && decide (s.width = w)) = true) : BoundReady s ∧ s.width = w := by
  simp only [Bool.and_eq_true, decide_eq_true_eq] at h
  exact ⟨(boundReady_iff s).1 h.1.2, h.2⟩

/-- What the presenting of a command can do when it answers a next state (30_encoding R96, R97). -/
theorem exec_idleMove {i : Instr} {s t : State} (h : exec i s = .next t) : IdleMove s t := by
  cases i <;> simp only [exec] at h
  case cfgc w cpol cpha rate =>
    refine accept_idleMove (fun hl => ?_) h
    exact .constructs (of_decide_eq_true (Bool.and_eq_true_iff.1 hl).2) rfl (.inl ⟨rfl, rfl⟩) rfl rfl rfl rfl (.inr rfl)
  case cfgp w cpol cpha =>
    refine accept_idleMove (fun hl => ?_) h
    exact .constructs (of_decide_eq_true hl) rfl (.inr ⟨rfl, rfl⟩) rfl rfl rfl rfl (.inl rfl)
  case ena | dis | to8 | to16 | rel => exact accept_idleMove (goto_idleMove (.inl rfl) rfl) h
  case rst => exact accept_idleMove (goto_idleMove (.inr rfl) rfl) h
  case xfer8 n =>
    refine accept_idleMove (fun hl => ?_) h
    obtain ⟨hb, hw⟩ := transfer_lawful hl
    exact .begins hb {} rfl (.inl rfl) rfl ⟨⟨le_rfl, Nat.zero_le _⟩, trivial, triesWithin_zero _, hw⟩ rfl
  case xfer16 n =>
    refine accept_idleMove (fun hl => ?_) h
    obtain ⟨hb, hw⟩ := transfer_lawful hl
    exact .begins hb {} rfl (.inl rfl) rfl ⟨⟨rfl, Nat.zero_le _⟩, trivial, trivial, hw⟩ rfl
  case wr8 n =>
    refine accept_idleMove (fun hl => ?_) h
    obtain ⟨hb, hw⟩ := transfer_lawful hl
    exact .begins hb {} rfl (.inl rfl) rfl ⟨Nat.zero_le _, Nat.zero_le _, trivial, hw⟩ rfl
  case wr16 n =>
    refine accept_idleMove (fun hl => ?_) h
    obtain ⟨hb, hw⟩ := transfer_lawful hl
    exact .begins hb {} rfl (.inl rfl) rfl ⟨Nat.zero_le _, trivial, trivial, hw⟩ rfl

theorem hostWrite_idleMove (fs : List FieldVal) {s : State} (hq : s.seq = .idle) (ho : s.own = .free) :
    IdleMove s (hostWrite fs s) := by
  obtain ⟨-, -, e⟩ | e | e := hostWrite_cases fs s <;> rw [e]
  all_goals exact .hostWrites ho ho hq rfl rfl rfl rfl

theorem takeMove_idleMove {m : OutsideMove} {s t : State} (hq : s.seq = .idle) (h : takeMove m s = .next t) :
    IdleMove s t := by
  cases m with
  | present c =>
    simp only [takeMove, acceptWord] at h
    cases hd : decode c <;> simp only [hd] at h
    · cases h; exact .stays (.reject s) rfl rfl rfl
    · exact exec_idleMove h
  | store w i v => cases h; exact .stays (.writeElem w i v s) rfl hq rfl
  | fieldWrite fs =>
    simp only [takeMove] at h
    split at h
    next ho => cases h; exact hostWrite_idleMove fs hq ho
    next => cases h
  | setClock f => cases h; exact .stays {} rfl hq rfl

/-- Which moves are still to come makes no difference to what a step does with the handle. -/
theorem IdleMove.of_outside {s t : State} {o : List OutsideMove} (h : IdleMove { s with outside := o } t) : IdleMove s t := by
  have frame : HandleFrame s { s with outside := o } := {}
  cases h with
  | stays f g q l => exact .stays (frame.trans f) g q l
  | constructs hf ho q r f c m l => exact .constructs hf ho q r f c m l
  | begins hb f g q r p l => exact .begins hb (frame.trans f) g q r p l
  | hostWrites hf ho q f c m l => exact .hostWrites hf ho q f c m l

theorem idle_idleMove {s t : State} (hq : s.seq = .idle) (h : microStep s = .next t) : IdleMove s t := by
  unfold microStep at h
  simp only [hq] at h
  unfold idleStep at h
  cases ho : s.outside with
  | nil => rw [ho] at h; cases h; exact .stays {} rfl hq rfl
  | cons m rest => rw [ho] at h; exact (takeMove_idleMove (s := { s with outside := rest }) hq h).of_outside

/-! ## The invariant of every step -/

theorem idle_keeps {s t : State} (hq : s.seq = .idle) (hi : Inv s) (hf : s.fault = .noFault) (h : microStep s = .next t) :
    Inv t := by
  cases idle_idleMove hq h with
  | stays frame group1 seq log =>
    cases ho : s.own with
    | free => exact inv_of_free seq (frame.own.trans ho) (frame.fault.trans hf) (frame.memory hi.memory)
    | bound => exact inv_of_live_idle (frame.live (hi.live_of_bound hq ho)) seq (frame.fault.trans hf)
  | constructs free own seq resp fault cfg mem log =>
    have hm : MemoryOk t := by rw [MemoryOk, mem]; exact hi.memory
    obtain ⟨e, role⟩ | ⟨e, role⟩ := seq <;>
    · refine inv_of_not_inTransfer ?_ hm ?_ (.inr resp) (.inl (fault.trans hf)) ?_ ?_ <;>
        simp only [LifecycleOk, FieldsOk, PortOk, e]
      exacts [rfl, ⟨own, role⟩]
  | begins ready frame group1 seq resp position log =>
    have live := frame.live (hi.live_of_bound hq ready.1)
    have fault := frame.fault.trans hf
    obtain work | e := seq
    · exact inv_of_live live work resp fault position
    · obtain ⟨hm, hb, ⟨hg, h2, -⟩, hp⟩ := live
      refine inv_of_not_inTransfer ?_ hm ?_ (.inr resp) (.inl fault) ?_ ?_ <;>
        simp only [LifecycleOk, FieldsOk, PortOk, e]
      exacts [rfl, hb, ⟨hg, h2⟩, hp]
  | hostWrites free own seq fault cfg mem log =>
    exact inv_of_free seq own (fault.trans hf) (by rw [MemoryOk, mem]; exact hi.memory)

/-- Every micro-state belongs to Idle or to one kind of command (10_state R23). -/
theorem seq_kinds (q : Seq) :
    q = .idle ∨ inConstruction q = true ∨ inReset q = true ∨ inShort q = true ∨ inTransfer q = true := by
  cases q <;> simp [inConstruction, inReset, inShort, inTransfer, inXfer8, inXfer16, inWrite]

theorem microStep_keeps {s t : State} (hi : Inv s) (hf : s.fault = .noFault) (h : microStep s = .next t) : Inv t := by
  obtain hq | hq | hq | hq | hq := seq_kinds s.seq
  · exact idle_keeps hq hi hf h
  · exact construction_keeps hq hi hf h
  · exact reset_keeps hq hi hf h
  · exact short_keeps hq hi hf h
  · exact transfer_keeps hq hi hf h

/-- Counting down to the next block reset touches nothing the invariant speaks of (log 8). -/
theorem Inv.tick {s : State} (h : Inv s) : Inv (Machine.tick s) :=
  ⟨h.memory, h.cursors, h.credit, h.tries, h.width, h.lifecycle, h.response, h.faulted, h.fields, h.ports⟩

/-- Settles O52: a block reset frees the handle; any other step is a micro-step, taken by the kind of its micro-state. -/
theorem stepKeepsInvariant : Obligations.StepKeepsInvariant := by
  intro s t hi h
  obtain ⟨-, rfl⟩ | ⟨hf, -, hm⟩ := step_next h
  · rw [takeReset_eq]; exact inv_of_free rfl rfl rfl hi.memory
  · exact microStep_keeps hi.tick hf hm

/-- The invariant holds along every run. -/
theorem inv_of_run {s t : State} {k : Nat} (hi : Inv s) (h : runSteps k s = .next t) : Inv t :=
  runSteps_keeps stepKeepsInvariant hi h

/-! ## What the invariant says of every state of a run -/

/-- The cursors of a transfer that keeps both are ordered (10_state R25). -/
theorem CursorsOk.fullDuplex {s : State} (h : CursorsOk s) (hq : inXfer8 s.seq = true ∨ inXfer16 s.seq = true) :
    s.rpos.toNat ≤ s.wpos.toNat ∧ s.wpos.toNat ≤ s.n.toNat := by
  unfold CursorsOk at h
  cases e : s.seq <;> simp only [e, inXfer8, inXfer16, Bool.false_eq_true, or_self] at h hq <;> omega

/-- XFER16 has at most one element outstanding (43_transfer R182). -/
theorem CursorsOk.oneOutstanding {s : State} (h : CursorsOk s) (hq : inXfer16 s.seq = true) :
    s.wpos.toNat ≤ s.rpos.toNat + 1 := by
  unfold CursorsOk at h
  cases e : s.seq <;> simp only [e, inXfer16, Bool.false_eq_true] at h hq <;> omega

/-- The cursor of a send-only transfer is within the buffer (10_state R25). -/
theorem CursorsOk.sendOnly {s : State} (h : CursorsOk s) (hq : inWrite s.seq = true) : s.wpos.toNat ≤ s.n.toNat := by
  unfold CursorsOk at h
  cases e : s.seq <;> simp only [e, inWrite, Bool.false_eq_true] at h hq <;> omega

/-- Settles O55: the cursor bounds of the invariant, which holds along the run. -/
theorem cursorsStayOrdered : Obligations.CursorsStayOrdered := by
  intro s t k hi h
  have hc := (inv_of_run hi h).cursors
  exact ⟨hc.fullDuplex, hc.oneOutstanding, hc.sendOnly⟩

theorem enabledFlag_iff (c : Lifecycle) : enabledFlag c = true ↔ c = .enabled := by cases c <;> decide

/-- Settles O56: a handle that is bound in Idle is live, and its fields are its image. -/
theorem fieldsMatchHandle : Obligations.FieldsMatchHandle := by
  intro s t k hi h hq ho
  obtain ⟨-, h2, he⟩ := ((inv_of_run hi h).live_of_bound hq ho).image
  refine ⟨congrArg Ctrl2.dsize h2, congrArg Ctrl2.rxth h2, fun hopen => ?_⟩
  rw [he.resolve_left (by simp [hopen]), enabledFlag_iff]

end Sys2Proof.Machine
end

section
/-! PROOFS. What one step does to the lifecycle state, to the direction fields and to the log, said once for each micro-state, and
that there always is a step. -/

namespace Sys2Proof.Machine

/-- A step that is no block reset is the micro-step of a machine without fault. -/
theorem step_next_microStep {s t : State} (hb : noBlockReset s = true) (h : step s = .next t) :
    s.fault = .noFault ∧ microStep (tick s) = .next t := by
  obtain ⟨hd, -⟩ | ⟨hf, -, hm⟩ := step_next h
  · rw [(noBlockReset_iff s).1 hb] at hd; cases hd
  · exact ⟨hf, hm⟩

/-! ## The lifecycle state -/

/-- `cfg` as the step of each micro-state leaves it (10_state R26). -/
def cfgAfter (q : Seq) (c : Lifecycle) : Lifecycle :=
  match q with
  | .cRstD | .pRstD => .reset
  | .cDis | .pDis => .disabledConfiguring
  | .cWidth | .pWidth | .dWrite | .sRest2 => .disabledConfigured
  | .cEn | .pEn | .eWrite => .enabled
  | _ => c

theorem cfgAfter_of_inTransfer {q : Seq} (h : inTransfer q = true) (c : Lifecycle) : cfgAfter q c = c := by
  cases q <;> trivial

theorem IdleMove.cfg {s t : State} (h : IdleMove s t) : t.cfg = s.cfg := by
  cases h with
  | stays frame => exact frame.cfg
  | constructs _ _ _ _ _ cfg => exact cfg
  | begins _ frame => exact frame.cfg
  | hostWrites _ _ _ _ cfg => exact cfg

/-- No step writes `cfg` but the eleven of the lifecycle table (10_state R26). -/
theorem microStep_cfg {s t : State} (h : microStep s = .next t) : t.cfg = cfgAfter s.seq s.cfg := by
  by_cases hq : inTransfer s.seq = true
  · rw [cfgAfter_of_inTransfer hq]; exact (transfer_handleFrame hq h).cfg
  · have hs := h
    unfold microStep at h
    cases e : s.seq <;> simp only [e] at h hq
    case idle => exact (idle_idleMove e hs).cfg
    case cClk | cRstA | cRstD | cDis | cWidth | cEn | pClk | pRstA | pRstD | pDis | pCtrl | pWidth | pEn =>
      cases h; rfl
    case cCtrl =>
      unfold cfgcCtrl at h
      split at h <;> cases h <;> rfl
    case eWrite | dWrite | vWrite | sSave1 | sSave2 | sRstA | sRstD | sRest1 | sRest2 | lRel => cases h; rfl
    all_goals exact absurd rfl hq

/-- Settles O27: the state before each step that writes `cfg` is the one the invariant names. -/
theorem lifecycleTransitions : Obligations.LifecycleTransitions := by
  intro s t hi hb h
  have hc : t.cfg = cfgAfter s.seq s.cfg := microStep_cfg (s := tick s) (step_next_microStep hb h).2
  have hl := hi.lifecycle
  unfold LifecycleOk at hl
  cases e : s.seq <;> simp only [e, cfgAfter] at hl hc <;> simp [hc, hl]

/-! ## The direction fields -/

/-- The direction fields are the same. -/
def SameDirection (s t : State) : Prop := t.ctrl1.bidimode = s.ctrl1.bidimode ∧ t.ctrl1.bidioe = s.ctrl1.bidioe

theorem HandleFrame.sameDirection {s t : State} (h : HandleFrame s t) : SameDirection s t := by
  rw [SameDirection, h.group1]; exact ⟨rfl, rfl⟩

theorem short_sameDirection {s t : State} (hq : inShort s.seq = true) (h : microStep s = .next t) : SameDirection s t := by
  unfold microStep at h
  cases e : s.seq <;> simp only [e] at h hq
  case eWrite | dWrite | vWrite => cases h; simp [SameDirection, applyCtrl1]
  case lRel => cases h; exact ⟨rfl, rfl⟩
  all_goals cases hq

theorem IdleMove.sameDirection {s t : State} (h : IdleMove s t) (ho : s.own = .bound) : SameDirection s t := by
  cases h with
  | stays frame => exact frame.sameDirection
  | begins _ frame => exact frame.sameDirection
  | constructs free => rw [ho] at free; cases free
  | hostWrites free => rw [ho] at free; cases free

/-- Outside construction and RST a live handle's direction fields are those its micro-state sets (10_state R28). -/
theorem microStep_direction {s t : State} (ho : s.own = .bound) (hc : inConstruction s.seq = false)
    (hr : inReset s.seq = false) (h : microStep s = .next t) : SameDirection (directed s.seq s) t := by
  obtain hq | hq | hq | hq | hq := seq_kinds s.seq
  · rw [hq]; exact (idle_idleMove hq h).sameDirection ho
  · rw [hq] at hc; cases hc
  · rw [hq] at hr; cases hr
  · have same : directionSet s.seq s.ctrl1 = s.ctrl1 := by
      cases e : s.seq <;> rw [e] at hq <;> trivial
    rw [directed, same]; exact short_sameDirection hq h
  · exact (transfer_handleFrame hq h).sameDirection

/-- Settles O25: each clause is a row of `directionSet`. -/
theorem directionSetByFirstStep : Obligations.DirectionSetByFirstStep := by
  intro s t ho hc hr hb h
  have hd : SameDirection (directed s.seq s) t :=
    microStep_direction (s := tick s) ho hc hr (step_next_microStep hb h).2
  refine ⟨?_, ?_, fun h1 h2 h3 h4 => ?_⟩
  · rintro (e | e) <;> rw [e] at hd <;> exact hd
  · rintro (e | e) <;> rw [e] at hd <;> exact hd
  · have same : directionSet s.seq s.ctrl1 = s.ctrl1 := by
      unfold directionSet
      split <;> trivial
    rw [SameDirection, directed, same] at hd
    exact hd

/-! ## The access log -/

/-- All fields of the list lie in one register (30_encoding R103). -/
def OneRegister (fs : List FieldVal) : Prop := ∃ r, ∀ f ∈ fs, fieldRegister f = r

/-- What one step can add to the log: nothing, one transaction on the register or the reset-and-clock port, the sending of an
element, or the storing of one (10_state R24). -/
inductive StepLog : List Access → Prop where
  | none : StepLog []
  | write {fs : List FieldVal} (h : OneRegister fs) : StepLog [.regWrite fs]
  | other {a : Access} (hp : isBufferAccess a = false) (hw : ∀ fs, a ≠ .regWrite fs) : StepLog [a]
  | send (w : Width) (i : Nat) (v : Half) : StepLog [.memRead w i v, .dataWrite w v]
  | store (w : Width) (i : Nat) (v : Half) : StepLog [.dataRead w v, .memWrite w i v]

/-- The log has grown by what one step can add. -/
def LogGrows (s t : State) : Prop := ∃ new, t.log = s.log ++ new ∧ StepLog new

namespace LogGrows

protected theorem none {s t : State} (h : t.log = s.log) : LogGrows s t := ⟨[], by simpa using h, .none⟩

protected theorem write {s t : State} {fs : List FieldVal} (r : RegName) (hf : ∀ f ∈ fs, fieldRegister f = r)
    (h : t.log = s.log ++ [.regWrite fs]) : LogGrows s t := ⟨_, h, .write ⟨r, hf⟩⟩

protected theorem snapshot {s t : State} (h : t.log = (Machine.snapshot s).log) : LogGrows s t :=
  ⟨_, h, .other rfl nofun⟩

end LogGrows

/-! An error response, and what it does to the buffer, adds nothing to the log. -/

@[simp] theorem respondError_log (r : Resp) (s : State) : (respondError r s).log = s.log := by
  rcases respondError_cases r s with ⟨-, e⟩ | ⟨-, e⟩ <;> rw [e] <;> rfl

@[simp] theorem failTransfer_log (w : Width) (r : Resp) (s : State) : (failTransfer w r s).log = s.log :=
  respondError_log r _

@[simp] theorem failLate_log (w : Width) (s : State) : (failLate w s).log = s.log := respondError_log .overrun _

@[simp] theorem drainBlocked_log (s : State) : (drainBlocked s).log = s.log := by
  unfold drainBlocked
  split
  · rfl
  · exact failTransfer_log _ _ s

/-- A poll adds its snapshot, whichever way it goes (42_fault_detector R167). -/
theorem pollThen_logGrows {kind : PollKind} {f g : State → State} {e : Resp → State → State}
    (hf : ∀ s, (f s).log = s.log) (hg : ∀ s, (g s).log = s.log) (he : ∀ r s, (e r s).log = s.log) (s : State) :
    LogGrows s (pollThen kind f g e s) := by
  apply LogGrows.snapshot
  rcases pollThen_cases kind f g e s with ⟨-, p⟩ | ⟨-, p⟩ | ⟨-, p⟩ | ⟨-, p⟩ <;> rw [p]
  · exact hf _
  · exact hg _
  · exact he _ _
  · exact he _ _

theorem sendElem_logGrows {w : Width} {q : Seq} {s t : State} (h : sendElem w q s = .next t) : LogGrows s t := by
  obtain ⟨-, rfl⟩ := sendElem_next h
  exact ⟨_, List.append_assoc _ _ _, .send w _ _⟩

theorem storeElem_logGrows {w : Width} {q : Seq} {s t : State} (h : storeElem w q s = .next t) : LogGrows s t := by
  obtain ⟨-, rfl⟩ := storeElem_next h
  exact ⟨_, List.append_assoc _ _ _, .store w _ _⟩

theorem IdleMove.logGrows {s t : State} (h : IdleMove s t) : LogGrows s t := by
  cases h with
  | stays _ _ _ log => exact .none log
  | constructs _ _ _ _ _ _ _ log =>
    obtain log | log := log
    · exact .none log
    · exact ⟨_, log, .other rfl nofun⟩
  | begins _ _ _ _ _ _ log => exact .none log
  | hostWrites _ _ _ _ _ _ log => exact .none log

/-- The transactions of each micro-state, one on a port at most (10_state R24). -/
theorem microStep_logGrows {s t : State} (h : microStep s = .next t) : LogGrows s t := by
  have hs := h
  unfold microStep at h
  cases e : s.seq <;> simp only [e] at h
  case idle => exact (idle_idleMove e hs).logGrows
  case cClk | pClk | cRstA | pRstA | sRstA | cRstD | pRstD | sRstD | sSave1 | sSave2 =>
    cases h; exact ⟨_, rfl, .other rfl nofun⟩
  case cDis | pDis | cEn | pEn | eWrite | dWrite | pCtrl | sRest1 =>
    cases h; exact .write .ctrl1 (by simp [peripheralFields, restoreGroup1, fieldRegister]) rfl
  case cWidth | pWidth | vWrite | sRest2 =>
    cases h; exact .write .ctrl2 (by simp [restoreGroup2, fieldRegister]) rfl
  case cCtrl =>
    unfold cfgcCtrl at h
    split at h <;> cases h
    · exact .none rfl
    · exact .write .ctrl1 (by simp [controllerFields, fieldRegister]) rfl
  case x8Setup | x16Setup | w8Setup | w16Setup => cases h; exact .write .ctrl1 (by simp [fieldRegister]) rfl
  case lRel | x8Main | x8Fill | x8Drain | w8Test | w8Cap | w16Test => cases h; exact .none rfl
  case x16Test => cases h; split <;> exact .none rfl
  case x8FillPoll | x8ReadPoll | x16SendPoll | x16RecvPoll =>
    cases h; exact pollThen_logGrows (fun s => goto_log _ s) (goto_log _) (failTransfer_log _) s
  case x8DrainPoll => cases h; exact pollThen_logGrows (goto_log _) drainBlocked_log (failTransfer_log _) s
  case w8InitPoll | w16Poll => cases h; exact pollThen_logGrows (goto_log _) (goto_log _) respondError_log s
  case w8FinalPoll | w16FinalPoll =>
    cases h; exact pollThen_logGrows (finish_log _) (goto_log _) (fun _ => finish_log _) s
  case x8Final =>
    cases h
    apply LogGrows.snapshot
    split
    · exact failLate_log _ _
    · rfl
  case w8CapRead => cases h; exact ⟨_, rfl, .other rfl nofun⟩
  case x8FillSend | x16Send | w16Send => exact sendElem_logGrows h
  case w8Send =>
    unfold wr8Send at h
    split at h
    · cases h
    · exact sendElem_logGrows (s := { s with cap := s.cap - 1#3 }) h
  case x8ReadStore | x16Store => exact storeElem_logGrows h
  case x8DrainStore => exact storeElem_logGrows (s := { s with tries := 0 }) h

/-- What one step can add is at most one transaction on each port, and a `RegWrite` in it is of one register. -/
theorem StepLog.onePerPort {new : List Access} (h : StepLog new) :
    (new.filter (fun a => !isBufferAccess a)).length ≤ 1 ∧ (new.filter isBufferAccess).length ≤ 1 ∧
      ∀ fs, .regWrite fs ∈ new → OneRegister fs := by
  cases h with
  | none => exact ⟨Nat.zero_le _, Nat.zero_le _, nofun⟩
  | write h =>
    refine ⟨le_rfl, Nat.zero_le _, fun fs hm => ?_⟩
    cases List.mem_singleton.1 hm
    exact h
  | other hp hw => exact ⟨by simp [hp], by simp [hp], fun fs hm => absurd (List.mem_singleton.1 hm).symm (hw fs)⟩
  | send w i v => exact ⟨le_rfl, le_rfl, fun fs hm => by simp at hm⟩
  | store w i v => exact ⟨le_rfl, le_rfl, fun fs hm => by simp at hm⟩

/-- Settles O51: a block reset adds nothing, a micro-step what its micro-state can add. -/
theorem oneTransactionPerPort : Obligations.OneTransactionPerPort := by
  intro s t h
  have grows : LogGrows s t := by
    obtain ⟨-, rfl⟩ | ⟨-, -, hm⟩ := step_next h
    · exact .none rfl
    · exact microStep_logGrows (s := tick s) hm
  obtain ⟨new, e, hnew⟩ := grows
  exact ⟨new, e, hnew.onePerPort⟩

/-! ## Progress -/

/-- A command presented in Idle without fault is always answered (30_encoding R96). -/
theorem exec_answers (i : Instr) {s : State} (hr : Ready s) : ∃ t, exec i s = .next t := by
  have answers (lawful : Bool) (latch : State → State) : ∃ t, accept lawful latch s = .next t := by
    cases h : lawful
    · exact ⟨_, accept_unlawful hr rfl⟩
    · exact ⟨_, accept_lawful hr rfl⟩
  cases i <;> simp only [exec] <;> exact answers _ _

theorem acceptWord_answers (c : CmdWord) {s : State} (hr : Ready s) : ∃ t, acceptWord c s = .next t := by
  unfold acceptWord
  cases decode c with
  | ok i => exact exec_answers i hr
  | error => exact ⟨_, rfl⟩

/-- In Idle the one move without a meaning is the host's write of control fields over a live handle (93 U4). -/
theorem idle_answers {s : State} (hr : Ready s) :
    (∃ t, microStep s = .next t) ∨ (s.own = .bound ∧ ∃ fs rest, s.outside = .fieldWrite fs :: rest) := by
  have hm : microStep s = idleStep s := by unfold microStep; rw [hr.1]
  rw [hm, idleStep]
  cases s.outside with
  | nil => exact .inl ⟨_, rfl⟩
  | cons m rest =>
    cases m with
    | present c => exact .inl (acceptWord_answers c (s := { s with outside := rest }) hr)
    | store w i v => exact .inl ⟨_, rfl⟩
    | setClock f => exact .inl ⟨_, rfl⟩
    | fieldWrite fs =>
      cases ho : s.own with
      | free => exact .inl ⟨hostWrite fs { s with own := .free, outside := rest }, rfl⟩
      | bound => exact .inr ⟨rfl, fs, rest, rfl⟩

/-- Outside Idle every micro-state has its step: the cursors and the credit are in bounds where an element is moved. -/
theorem microStep_answers {s : State} (hi : Inv s) (hq : s.seq ≠ .idle) : ∃ t, microStep s = .next t := by
  obtain ⟨-, hc, hcr, -, -, -, -, -, -, -⟩ := hi
  unfold microStep
  cases e : s.seq <;> simp only [e, CursorsOk, CreditOk] at hc hcr hq ⊢
  case idle => exact absurd rfl hq
  case cCtrl => unfold cfgcCtrl; split <;> exact ⟨_, rfl⟩
  case x8FillSend | x16Send => exact ⟨_, sendElem_of_lt (BitVec.lt_def.2 hc.2)⟩
  case w16Send => exact ⟨_, sendElem_of_lt (BitVec.lt_def.2 hc)⟩
  case w8Send =>
    have hcap : s.cap ≠ 0#3 := by rintro h; rw [h] at hcr; exact absurd hcr.1 (by decide)
    rw [wr8Send, if_neg hcap]
    exact ⟨_, sendElem_of_lt (BitVec.lt_def.2 hc)⟩
  case x8ReadStore | x8DrainStore | x16Store =>
    have hlt : s.rpos < s.n := by rw [BitVec.lt_def]; omega
    exact ⟨_, storeElem_of_lt hlt⟩
  all_goals exact ⟨_, rfl⟩

/-- Settles O58: a block reset that is due is a step, Idle answers every move but the one the contract forbids, and every
other micro-state has its step. -/
theorem stepAlwaysAnswers : Obligations.StepAlwaysAnswers := by
  intro s hi hf
  cases hb : noBlockReset s with
  | false => exact .inl ⟨_, step_due (by simpa [noBlockReset] using hb)⟩
  | true =>
    rw [step_eq_microStep hf hb]
    by_cases hq : s.seq = .idle
    · exact (idle_answers (s := tick s) ⟨hq, hf⟩).imp_right fun h => ⟨hq, h⟩
    · exact .inl (microStep_answers hi.tick hq)

end Sys2Proof.Machine
end

section
/-! PROOFS. The frame of a transfer's step (20_memory R69; 60_exceptions R229, R231): what it can do to the buffer, said once with
the latched operands and group 1 for each micro-state; and that no run accesses an element or takes a credit that is not there. -/

namespace Sys2Proof.Machine

/-! ## What a step of a transfer can do to the buffer -/

/-- The latched operands and the saved groups, which no step of a transfer writes (10_state R20). -/
structure SameOperands (s t : State) : Prop where
  fin : t.fin = s.fin := by rfl
  freq : t.freq = s.freq := by rfl
  n : t.n = s.n := by rfl
  save1 : t.save1 = s.save1 := by rfl
  save2 : t.save2 = s.save2 := by rfl

/-- The micro-states that store an element, with its width (43_transfer R173, R174, R180). -/
def storesElem : Seq → Option Width
  | .x8ReadStore => some .w8
  | .x8DrainStore => some .w8
  | .x16Store => some .w16
  | _ => none

theorem inWrite_of_storesElem {q : Seq} {w : Width} (h : storesElem q = some w) : inWrite q = false := by
  unfold storesElem at h
  split at h <;> trivial

/-- The element width of the full-duplex transfer that `q` belongs to. -/
def exchangeWidth (q : Seq) : Width := if inXfer8 q then .w8 else .w16

/-- The buffer after an error response in micro-state `q`: untouched by a send-only transfer; otherwise unspecified from the read
cursor on, after a late overrun as a whole (60_exceptions R231). -/
def bufferAfterError (q : Seq) (s : State) : Memory :=
  if inWrite q then s.mem
  else unspecify (if q = .x8Final then 0 else elemAddr (exchangeWidth q) s.rpos.toNat)
    (elemAddr (exchangeWidth q) s.n.toNat) s.mem

/-- What the step of micro-state `q` of a transfer can do to the buffer: leave it, running on or answering Ok; store the element
at the read cursor; or end the command with an error. -/
inductive BufferMove (q : Seq) (s t : State) : Prop where
  | leaves (seq : t.seq ≠ .idle ∨ t.resp = .ok) (mem : t.mem = s.mem)
  | stores {w : Width} {v : Half} (elem : storesElem q = some w) (seq : t.seq ≠ .idle)
      (mem : t.mem = writeElem w s.mem s.rpos.toNat v)
  | fails (seq : t.seq = .idle) (resp : t.resp ≠ .ok) (mem : t.mem = bufferAfterError q s)

namespace BufferMove

theorem mem_of_inWrite {q : Seq} {s t : State} (h : BufferMove q s t) (hq : inWrite q = true) : t.mem = s.mem := by
  cases h with
  | leaves _ mem => exact mem
  | stores elem => rw [inWrite_of_storesElem elem] at hq; cases hq
  | fails _ _ mem => rw [mem, bufferAfterError, if_pos hq]

theorem mem_of_running {q : Seq} {s t : State} (h : BufferMove q s t) (ht : t.seq ≠ .idle) (hq : storesElem q = none) :
    t.mem = s.mem := by
  cases h with
  | leaves _ mem => exact mem
  | stores elem => rw [hq] at elem; cases elem
  | fails seq => exact absurd seq ht

theorem readByte_of_stores {q : Seq} {s t : State} (h : BufferMove q s t) (ht : t.seq ≠ .idle) {w : Width}
    (hq : storesElem q = some w) {a : Nat} (ha : a < elemAddr w s.rpos.toNat ∨ elemAddr w (s.rpos.toNat + 1) ≤ a) :
    readByte t.mem a = readByte s.mem a := by
  cases h with
  | leaves _ mem => rw [mem]
  | stores elem _ mem =>
    cases hq.symm.trans elem
    rw [mem, readByte_writeElem_outside w s.mem s.rpos.toNat _ ha]
  | fails seq => exact absurd seq ht

theorem mem_of_ok {q : Seq} {s t : State} (h : BufferMove q s t) (ht : t.seq = .idle) (hr : t.resp = .ok) : t.mem = s.mem := by
  cases h with
  | leaves _ mem => exact mem
  | stores _ seq => exact absurd ht seq
  | fails _ resp => exact absurd hr resp

theorem mem_of_error {q : Seq} {s t : State} (h : BufferMove q s t) (ht : t.seq = .idle) (hr : t.resp ≠ .ok) :
    t.mem = bufferAfterError q s := by
  cases h with
  | leaves seq => exact seq.elim (absurd ht) (absurd · hr)
  | stores _ seq => exact absurd ht seq
  | fails _ _ mem => exact mem

end BufferMove

/-- An error response leaves the elements before the read cursor, unless the overrun is a late one (60_exceptions R231). -/
theorem readByte_bufferAfterError {q : Seq} {s : State} {a : Nat} (hq : q ≠ .x8Final)
    (ha : a < elemAddr (exchangeWidth q) s.rpos.toNat ∨ elemAddr (exchangeWidth q) s.n.toNat ≤ a) :
    readByte (bufferAfterError q s) a = readByte s.mem a := by
  rw [bufferAfterError, if_neg hq]
  split
  · rfl
  · exact readByte_unspecify_outside s.mem ha

/-- A late overrun leaves what lies behind the buffer (93 U12). -/
theorem readByte_bufferAfterError_final {s : State} {a : Nat} (ha : elemAddr .w8 s.n.toNat ≤ a) :
    readByte (bufferAfterError .x8Final s) a = readByte s.mem a := readByte_unspecify_outside s.mem (.inr ha)

/-! ## One rule per way a step of a transfer goes -/

/-- What the step of micro-state `q` of a transfer leaves: the operands; group 1 but for the direction that a first step sets and
for MSTR and EN after a ModeFault, which only a poll that propagates a fault answers; and of the buffer what `BufferMove` says. -/
structure TransferStep (q : Seq) (s t : State) : Prop where
  operands : SameOperands s t
  group1 : t.ctrl1 = directionSet q s.ctrl1 ∨ (propagatingPoll q = true ∧ t.resp = .modeFault)
  buffer : BufferMove q s t

namespace TransferStep

/-- The transfer runs on without a store. -/
protected theorem goesOn {q : Seq} {s t : State} (seq : t.seq ≠ .idle) (operands : SameOperands s t := by exact {})
    (group1 : t.ctrl1 = directionSet q s.ctrl1 := by rfl) (mem : t.mem = s.mem := by rfl) : TransferStep q s t :=
  ⟨operands, .inl group1, .leaves (.inl seq) mem⟩

/-- The transfer ends with Ok. -/
protected theorem endsWell {q : Seq} {s u : State} (operands : SameOperands s u := by exact {})
    (group1 : u.ctrl1 = directionSet q s.ctrl1 := by rfl) (mem : u.mem = s.mem := by rfl) :
    TransferStep q s (finish .ok u) :=
  ⟨⟨operands.fin, operands.freq, operands.n, operands.save1, operands.save2⟩, .inl group1, .leaves (.inr rfl) mem⟩

/-- The transfer ends with the error `r` (60_exceptions R229). -/
protected theorem respondError {q : Seq} {r : Resp} {s u : State} (hr : r ≠ .ok)
    (hp : r = .modeFault → propagatingPoll q = true) (operands : SameOperands s u := by exact {})
    (group1 : u.ctrl1 = directionSet q s.ctrl1 := by rfl) (mem : u.mem = bufferAfterError q s := by rfl) :
    TransferStep q s (respondError r u) := by
  obtain ⟨fin, freq, n, save1, save2⟩ := operands
  rcases respondError_cases r u with ⟨-, e⟩ | ⟨rfl, e⟩ <;> rw [e]
  · exact ⟨⟨fin, freq, n, save1, save2⟩, .inl group1, .fails rfl hr mem⟩
  · exact ⟨⟨fin, freq, n, save1, save2⟩, .inr ⟨hp rfl, rfl⟩, .fails rfl hr mem⟩

/-- A poll goes as its branches go, its fault branch with an error response (42_fault_detector R167). -/
protected theorem pollThen {q : Seq} {kind : PollKind} {f g : State → State} {e : Resp → State → State} {s : State}
    (hf : TransferStep q s (f (snapshot s))) (hg : TransferStep q s (g (snapshot s)))
    (he : ∀ r, r ≠ .ok → TransferStep q s (e r (snapshot s))) : TransferStep q s (pollThen kind f g e s) := by
  rcases pollThen_cases kind f g e s with ⟨-, p⟩ | ⟨-, p⟩ | ⟨-, p⟩ | ⟨-, p⟩ <;> rw [p]
  · exact hf
  · exact hg
  · exact he _ nofun
  · exact he _ nofun

protected theorem sendElem {q q' : Seq} {w : Width} {s t : State} (h : sendElem w q' s = .next t) (hq : q' ≠ .idle)
    (group1 : s.ctrl1 = directionSet q s.ctrl1 := by rfl) : TransferStep q s t := by
  obtain ⟨-, rfl⟩ := sendElem_next h
  exact .goesOn hq {} group1

protected theorem storeElem {q q' : Seq} {w : Width} {s t : State} (h : storeElem w q' s = .next t) (hq : q' ≠ .idle)
    (elem : storesElem q = some w := by rfl) (group1 : s.ctrl1 = directionSet q s.ctrl1 := by rfl) :
    TransferStep q s t := by
  obtain ⟨-, rfl⟩ := storeElem_next h
  exact ⟨{}, .inl group1, .stores elem hq rfl⟩

end TransferStep

/-- Every micro-step of a transfer leaves its operands, group 1 and the buffer as `TransferStep` says (43_transfer R171 to R175,
R180; 44_write R201 to R204, R208). -/
theorem transfer_step {s t : State} (hq : inTransfer s.seq = true) (h : microStep s = .next t) : TransferStep s.seq s t := by
  unfold microStep at h
  cases e : s.seq <;> simp only [e] at h hq ⊢
  case x8Setup | x16Setup | w8Setup | w16Setup => cases h; rw [regWrite_other rfl]; exact .goesOn nofun
  case x8Main | x8Fill | x8Drain | w8Test | w8Cap | w16Test => cases h; split <;> exact .goesOn nofun
  case x16Test =>
    cases h
    split
    · exact .goesOn nofun
    · exact .endsWell
  case x8FillPoll | x16SendPoll | x16RecvPoll | w8InitPoll | w16Poll =>
    cases h; exact .pollThen (.goesOn nofun) (.goesOn nofun) fun _ hr => .respondError hr fun _ => rfl
  case x8ReadPoll =>
    cases h
    refine .pollThen ?_ (.goesOn nofun) fun _ hr => .respondError hr fun _ => rfl
    split <;> exact .goesOn nofun
  case x8DrainPoll =>
    cases h
    refine .pollThen (.goesOn nofun) ?_ fun _ hr => .respondError hr fun _ => rfl
    unfold drainBlocked
    split
    · exact .goesOn nofun
    · exact .respondError nofun nofun
  case x8Final =>
    cases h
    split
    · exact .respondError nofun nofun
    · exact .endsWell
  case w8FinalPoll | w16FinalPoll => cases h; exact .pollThen .endsWell (.goesOn nofun) fun _ _ => .endsWell
  case w8CapRead => cases h; exact .goesOn nofun
  case x8FillSend | x16Send | w16Send => exact .sendElem h nofun
  case w8Send =>
    unfold wr8Send at h
    split at h
    · cases h
    · obtain ⟨-, rfl⟩ := sendElem_next h
      exact .goesOn nofun
  case x8ReadStore | x16Store => exact .storeElem h nofun
  case x8DrainStore =>
    obtain ⟨-, rfl⟩ := storeElem_next h
    exact ⟨{}, .inl rfl, .stores rfl nofun rfl⟩
  all_goals cases hq

/-! ## The frame -/

/-- Only the first step of a transfer sets the direction fields (10_state R28). -/
theorem directionSet_of_not_first {q : Seq} (h8 : q ≠ .x8Setup) (h16 : q ≠ .x16Setup) (hw8 : q ≠ .w8Setup)
    (hw16 : q ≠ .w16Setup) (c : Ctrl1) : directionSet q c = c := by
  unfold directionSet
  split <;> trivial

/-- Settles O50: `transfer_handleFrame` for the handle, `transfer_step` for the operands, group 1 and the buffer. -/
theorem transferFrame : Obligations.TransferFrame := by
  intro s t hq hb h
  have hm := (step_next_microStep hb h).2
  obtain ⟨own, cfg, role, cpol, cpha, width, ctrl2, clkEn, rstLine, fault, handle1, -, -⟩ :=
    transfer_handleFrame (s := tick s) hq hm
  obtain ⟨⟨fin, freq, n, save1, save2⟩, group1, buffer⟩ := transfer_step (s := tick s) hq hm
  rw [tick_seq] at handle1 group1 buffer
  refine ⟨own, cfg, role, cpol, cpha, width, fin, freq, n, save1, save2, ctrl2, clkEn, rstLine, fault, ?_, ?_, ?_,
    buffer.mem_of_inWrite, ?_, ?_, ?_, buffer.mem_of_ok, ?_, ?_⟩
  · rintro (e | e) <;> simpa [e, directionSet, propagatingPoll] using group1
  · rintro (e | e) <;> simpa [e, directionSet, propagatingPoll] using group1
  · intro h8 h16 hw8 hw16
    have same (c : Ctrl1) : directionSet s.seq c = c := directionSet_of_not_first h8 h16 hw8 hw16 c
    rw [directed, same] at handle1
    rw [same] at group1
    exact ⟨handle1, fun hr => group1.resolve_right fun hp => hr hp.2⟩
  · rintro ht (e | e) a ha <;> exact buffer.readByte_of_stores ht (by rw [e]; rfl) ha
  · rintro ht e a ha; exact buffer.readByte_of_stores ht (by rw [e]; rfl) ha
  · intro ht h1 h2 h3
    refine buffer.mem_of_running ht ?_
    unfold storesElem
    split <;> trivial
  · intro ht hr hf a ha
    rw [buffer.mem_of_error ht hr]
    exact readByte_bufferAfterError hf ha
  · intro ht hr hf a ha
    rw [buffer.mem_of_error ht hr, hf]
    exact readByte_bufferAfterError_final ha

/-! ## The only fault -/

/-- A step faults because the sequencer has faulted, or because a micro-step does (10_state R24; 60_exceptions R226). -/
theorem step_fault {s : State} {f : Fault} (h : step s = .fault f) :
    (s.fault = .divisorUndefined ∧ f = .divisorUndefined) ∨ (s.fault = .noFault ∧ microStep (tick s) = .fault f) := by
  unfold step machineStep at h
  split at h
  · cases h
  · unfold sequencerStep at h
    rw [tick_fault] at h
    cases hf : s.fault <;> rw [hf] at h
    · exact .inr ⟨rfl, h⟩
    · cases h; exact .inl ⟨rfl, rfl⟩

/-- In Idle the machine never faults: what has no meaning there is refused (93 U4). -/
theorem idle_no_fault {s : State} (hr : Ready s) (f : Fault) : microStep s ≠ .fault f := by
  obtain ⟨t, ht⟩ | ⟨ho, fs, rest, hout⟩ := idle_answers hr
  · rw [ht]; nofun
  · have hm : microStep s = .refused .hostContract := by
      unfold microStep
      simp [hr.1, idleStep, hout, takeMove, ho]
    rw [hm]; nofun

/-- Settles O57: without the sequencer fault every micro-step answers, and the invariant puts that fault in C_CTRL. -/
theorem onlyTheSequencerFaultStops : Obligations.OnlyTheSequencerFaultStops := by
  intro s f hi h
  obtain ⟨hs, rfl⟩ | ⟨hf, hm⟩ := step_fault h
  · exact ⟨rfl, hs, (hi.faulted.resolve_left (by rw [hs]; nofun)).1⟩
  · by_cases hq : s.seq = .idle
    · exact absurd hm (idle_no_fault (s := tick s) ⟨hq, hf⟩ f)
    · obtain ⟨t, ht⟩ := microStep_answers hi.tick hq
      rw [ht] at hm; cases hm

end Sys2Proof.Machine
end

section
/-! PROOFS. The decoder and the encoder are each other's inverse, and the opcode map says which words decode (30_encoding R90 to
R95). The decoder is said once, by the row of the map whose `OPC` the word has. -/

namespace Sys2Proof

open Machine (firstSeq)

/-! ## The decoder, row by row -/

/-- The decoder of the row of the opcode map that `j` belongs to, whatever `j`'s operands (30_encoding R93). -/
def rowDecoder (j : Instr) : CmdWord → Except Illegal Instr :=
  match j with
  | .cfgc _ _ _ _ => decodeCfgc
  | .cfgp _ _ _ => decodeCfgp
  | .ena => decodeNone .ena
  | .dis => decodeNone .dis
  | .to8 => decodeNone .to8
  | .to16 => decodeNone .to16
  | .rst => decodeNone .rst
  | .rel => decodeNone .rel
  | .xfer8 _ => decodeLen .xfer8
  | .xfer16 _ => decodeLen .xfer16
  | .wr8 _ => decodeLen .wr8
  | .wr16 _ => decodeLen .wr16

theorem decode_of_row {c : CmdWord} {j : Instr} (ho : opcOf c = j.opc) (hr : rsvOf c = 0#21) : decode c = rowDecoder j c := by
  rw [decode, if_pos hr, decodeOpc, ho]
  cases j <;> rfl

/-- A word that decodes has reserved bits 0 and the `OPC` of a row, and that row's decoder reads the command (30_encoding R94). -/
theorem decode_ok {c : CmdWord} {i : Instr} (h : decode c = .ok i) :
    rsvOf c = 0#21 ∧ ∃ j : Instr, opcOf c = j.opc ∧ rowDecoder j c = .ok i := by
  unfold decode at h
  split at h
  next hr =>
    refine ⟨hr, ?_⟩
    unfold decodeOpc at h
    split at h
    next e => exact ⟨.cfgc .w8 false false 0, BitVec.eq_of_toNat_eq e, h⟩
    next e => exact ⟨.cfgp .w8 false false, BitVec.eq_of_toNat_eq e, h⟩
    next e => exact ⟨.ena, BitVec.eq_of_toNat_eq e, h⟩
    next e => exact ⟨.dis, BitVec.eq_of_toNat_eq e, h⟩
    next e => exact ⟨.to8, BitVec.eq_of_toNat_eq e, h⟩
    next e => exact ⟨.to16, BitVec.eq_of_toNat_eq e, h⟩
    next e => exact ⟨.rst, BitVec.eq_of_toNat_eq e, h⟩
    next e => exact ⟨.rel, BitVec.eq_of_toNat_eq e, h⟩
    next e => exact ⟨.xfer8 0, BitVec.eq_of_toNat_eq e, h⟩
    next e => exact ⟨.xfer16 0, BitVec.eq_of_toNat_eq e, h⟩
    next e => exact ⟨.wr8 0, BitVec.eq_of_toNat_eq e, h⟩
    next e => exact ⟨.wr16 0, BitVec.eq_of_toNat_eq e, h⟩
    next => cases h
  next => cases h

/-! ## Encode, then decode -/

@[simp] theorem opcOf_encode (i : Instr) : opcOf (encode i) = i.opc := by cases i <;> exact opcOf_packCommand ..

@[simp] theorem rsvOf_encode (i : Instr) : rsvOf (encode i) = 0#21 := by cases i <;> exact rsvOf_packCommand ..

theorem fitsArg_iff (n : Nat) : fitsArg n = true ↔ n < 2 ^ 32 := decide_eq_true_iff

/-- A number that fits `ARG` is read back from it (30_encoding R92). -/
theorem argOf_packCommand_toNat {n : Nat} (h : fitsArg n = true) (o : BitVec 8) (w p k : Bool) :
    (argOf (packCommand o w p k n)).toNat = n := by
  rw [argOf_packCommand, BitVec.toNat_ofNat, Nat.mod_eq_of_lt ((fitsArg_iff n).1 h)]

@[simp] theorem decodeNone_packCommand (i : Instr) (o : BitVec 8) :
    decodeNone i (packCommand o false false false 0) = .ok i := by simp [decodeNone]

theorem decodeLen_packCommand (mk : Nat → Instr) (o : BitVec 8) {n : Nat} (h : fitsArg n = true) :
    decodeLen mk (packCommand o false false false n) = .ok (mk n) := by
  simp only [decodeLen, tagsOf_packCommand, argOf_packCommand_toNat h, if_true]

theorem decodeCfgc_packCommand (o : BitVec 8) (w : Width) (p k : Bool) {n : Nat} (h : fitsArg n = true) :
    decodeCfgc (packCommand o (wbit w) p k n) = .ok (.cfgc w p k n) := by
  simp only [decodeCfgc, wOf_packCommand, wtag_wbit, cpolOf_packCommand, cphaOf_packCommand, argOf_packCommand_toNat h]

@[simp] theorem decodeCfgp_packCommand (o : BitVec 8) (w : Width) (p k : Bool) :
    decodeCfgp (packCommand o (wbit w) p k 0) = .ok (.cfgp w p k) := by simp [decodeCfgp]

theorem rowDecoder_encode {i : Instr} (h : i.WellFormed) : rowDecoder i (encode i) = .ok i := by
  cases i with
  | cfgc w p k n => exact decodeCfgc_packCommand _ w p k h
  | cfgp w p k => exact decodeCfgp_packCommand _ w p k
  | xfer8 n | xfer16 n | wr8 n | wr16 n => exact decodeLen_packCommand _ _ h
  | ena | dis | to8 | to16 | rst | rel => exact decodeNone_packCommand _ _

/-- Settles O1: the word of a command has its row's `OPC`, and the row's decoder reads each operand back. -/
theorem decodeInvertsEncode : Obligations.DecodeInvertsEncode := by
  intro i h
  rw [decode_of_row (opcOf_encode i) (rsvOf_encode i), rowDecoder_encode h]

/-! ## Decode, then encode -/

/-- A command word is made of its fields: with the reserved bits 0 it is the word packed from the others (30_encoding R90). -/
theorem packCommand_fields {c : CmdWord} (hr : rsvOf c = 0#21) :
    packCommand (opcOf c) (wOf c) (cpolOf c) (cphaOf c) (argOf c).toNat = c := by
  apply BitVec.eq_of_toNat_eq
  have hr' := congrArg BitVec.toNat hr
  simp only [rsvOf, BitVec.extractLsb'_toNat, Nat.shiftRight_eq_div_pow, BitVec.toNat_ofNat] at hr'
  simp only [packCommand_toNat, opcOf, argOf, wOf, cpolOf, cphaOf, BitVec.extractLsb'_toNat, Nat.shiftRight_eq_div_pow,
    BitVec.getLsbD, Nat.toNat_testBit]
  omega

/-- `tagsOf` is 0 exactly when `W`, `CPOL` and `CPHA` are. -/
theorem tagsOf_eq_zero {c : CmdWord} (h : tagsOf c = 0#3) : wOf c = false ∧ cpolOf c = false ∧ cphaOf c = false := by
  have bit (k : Nat) (hk : k < 3) : c.getLsbD (32 + k) = false := by
    have := congrArg (BitVec.getLsbD · k) h
    simpa [tagsOf, hk] using this
  exact ⟨bit 2 (by decide), bit 1 (by decide), bit 0 (by decide)⟩

theorem decodeNone_ok {i j : Instr} {c : CmdWord} (hr : rsvOf c = 0#21) (h : decodeNone j c = .ok i) :
    i = j ∧ packCommand (opcOf c) false false false 0 = c := by
  unfold decodeNone at h
  split at h
  next hz =>
    obtain ⟨hw, hp, hk⟩ := tagsOf_eq_zero hz.1
    have e := packCommand_fields hr
    rw [hw, hp, hk, hz.2] at e
    cases h
    exact ⟨rfl, e⟩
  next => cases h

theorem decodeLen_ok {mk : Nat → Instr} {i : Instr} {c : CmdWord} (hr : rsvOf c = 0#21) (h : decodeLen mk c = .ok i) :
    ∃ n, fitsArg n = true ∧ i = mk n ∧ packCommand (opcOf c) false false false n = c := by
  unfold decodeLen at h
  split at h
  next hz =>
    obtain ⟨hw, hp, hk⟩ := tagsOf_eq_zero hz
    have e := packCommand_fields hr
    rw [hw, hp, hk] at e
    cases h
    exact ⟨_, (fitsArg_iff _).2 (argOf c).isLt, rfl, e⟩
  next => cases h

theorem decodeCfgc_ok {i : Instr} {c : CmdWord} (hr : rsvOf c = 0#21) (h : decodeCfgc c = .ok i) :
    ∃ w p k n, fitsArg n = true ∧ i = .cfgc w p k n ∧ packCommand (opcOf c) (wbit w) p k n = c := by
  cases h
  exact ⟨_, _, _, _, (fitsArg_iff _).2 (argOf c).isLt, rfl, by rw [wbit_wtag, packCommand_fields hr]⟩

theorem decodeCfgp_ok {i : Instr} {c : CmdWord} (hr : rsvOf c = 0#21) (h : decodeCfgp c = .ok i) :
    ∃ w p k, i = .cfgp w p k ∧ packCommand (opcOf c) (wbit w) p k 0 = c := by
  unfold decodeCfgp at h
  split at h
  next hz =>
    have e := packCommand_fields hr
    rw [hz, ← wbit_wtag (wOf c)] at e
    cases h
    exact ⟨_, _, _, rfl, e⟩
  next => cases h

/-- What a row's decoder reads from a word of its row is a command of that row, and the word is the command's. -/
theorem rowDecoder_ok {c : CmdWord} {i j : Instr} (ho : opcOf c = j.opc) (hr : rsvOf c = 0#21) (h : rowDecoder j c = .ok i) :
    encode i = c ∧ i.WellFormed := by
  cases j with
  | cfgc =>
    obtain ⟨w, p, k, n, hn, rfl, e⟩ := decodeCfgc_ok hr h
    rw [ho] at e
    exact ⟨e, hn⟩
  | cfgp =>
    obtain ⟨w, p, k, rfl, e⟩ := decodeCfgp_ok hr h
    rw [ho] at e
    exact ⟨e, rfl⟩
  | xfer8 | xfer16 | wr8 | wr16 =>
    obtain ⟨n, hn, rfl, e⟩ := decodeLen_ok hr h
    rw [ho] at e
    exact ⟨e, hn⟩
  | ena | dis | to8 | to16 | rst | rel =>
    obtain ⟨rfl, e⟩ := decodeNone_ok hr h
    rw [ho] at e
    exact ⟨e, rfl⟩

/-- Settles O2: the word is packed from its fields, and each format's decoder has read every field or found it 0. -/
theorem encodeInvertsDecode : Obligations.EncodeInvertsDecode := by
  intro c i h
  obtain ⟨hr, j, ho, hj⟩ := decode_ok h
  exact rowDecoder_ok ho hr hj

/-! ## The opcode map -/

/-- Every command's word fits its own row (30_encoding R93). -/
theorem encode_fitsRow (i : Instr) : encode i &&& i.maskWord = i.matchWord := by
  cases i with
  | cfgc w p k n => exact Laws.FitsRow.cfgc w p k n
  | cfgp w p k => exact Laws.FitsRow.cfgp w p k
  | ena => exact Laws.FitsRow.ena
  | dis => exact Laws.FitsRow.dis
  | to8 => exact Laws.FitsRow.to8
  | to16 => exact Laws.FitsRow.to16
  | rst => exact Laws.FitsRow.rst
  | rel => exact Laws.FitsRow.rel
  | xfer8 n => exact Laws.FitsRow.xfer8 n
  | xfer16 n => exact Laws.FitsRow.xfer16 n
  | wr8 n => exact Laws.FitsRow.wr8 n
  | wr16 n => exact Laws.FitsRow.wr16 n

/-- Where a mask covers a field whole, matching the row fixes that field. -/
theorem extract_of_matches {c m v : CmdWord} (start len : Nat) {z : BitVec len} (h : c &&& m = v)
    (hm : m.extractLsb' start len = BitVec.allOnes len) (hv : v.extractLsb' start len = z) : c.extractLsb' start len = z := by
  rw [← hv, ← h, BitVec.extractLsb'_and, hm, BitVec.and_allOnes]

/-- The mask of every row covers `OPC` and the reserved bits. -/
theorem maskWord_covers (j : Instr) : opcOf j.maskWord = BitVec.allOnes 8 ∧ rsvOf j.maskWord = BitVec.allOnes 21 := by
  cases j <;> simp only [Instr.maskWord] <;> decide

/-- The match of every row is its `OPC`, with every other field 0. -/
theorem matchWord_fields (j : Instr) : opcOf j.matchWord = j.opc ∧ rsvOf j.matchWord = 0#21 ∧ tagsOf j.matchWord = 0#3 ∧
    argOf j.matchWord = 0#32 := by
  cases j <;> simp only [Instr.matchWord, Instr.opc] <;> decide

/-- A word that matches a row is decoded, to a command of that row: the mask covers every field that the row's decoder tests. -/
theorem decode_of_matches {c : CmdWord} {j : Instr} (h : c &&& j.maskWord = j.matchWord) :
    ∃ i, decode c = .ok i ∧ firstSeq i = firstSeq j := by
  obtain ⟨mo, mr⟩ := maskWord_covers j
  obtain ⟨vo, vr, vt, va⟩ := matchWord_fields j
  rw [decode_of_row (extract_of_matches 56 8 h mo vo) (extract_of_matches 35 21 h mr vr)]
  cases j with
  | cfgc => exact ⟨_, rfl, rfl⟩
  | cfgp =>
    have ha : argOf c = 0#32 := extract_of_matches 0 32 h (by simp only [Instr.maskWord]; decide) va
    exact ⟨_, if_pos ha, rfl⟩
  | xfer8 | xfer16 | wr8 | wr16 =>
    have ht : tagsOf c = 0#3 := extract_of_matches 32 3 h (by simp only [Instr.maskWord]; decide) vt
    exact ⟨_, if_pos ht, rfl⟩
  | ena | dis | to8 | to16 | rst | rel =>
    have ht : tagsOf c = 0#3 := extract_of_matches 32 3 h (by simp only [Instr.maskWord]; decide) vt
    have ha : argOf c = 0#32 := extract_of_matches 0 32 h (by simp only [Instr.maskWord]; decide) va
    exact ⟨_, if_pos ⟨ht, ha⟩, rfl⟩

/-- Settles O3: a word that decodes is its command's word, which fits the row; a word that fits a row decodes to a command of it. -/
theorem opcodeMapDecides : Obligations.OpcodeMapDecides := by
  intro c
  refine ⟨⟨fun ⟨i, h⟩ => ⟨i, ?_⟩, fun ⟨j, h⟩ => ?_⟩, fun i j hi hj => ?_⟩
  · rw [← (encodeInvertsDecode c i h).1, encode_fitsRow]
  · obtain ⟨i, hi, -⟩ := decode_of_matches h
    exact ⟨i, hi⟩
  · obtain ⟨k, hk, e⟩ := decode_of_matches hj
    cases hi.symm.trans hk
    exact e

/-- Settles O4: the decoder evaluated on the eight words. -/
theorem workedEncodingsDecode : Obligations.WorkedEncodingsDecode := by
  unfold Obligations.WorkedEncodingsDecode
  decide

end Sys2Proof
end

section
/-! PROOFS. Acceptance (30_encoding R94, R96, R97; 60_exceptions R224): what a presented word becomes, and what `exec` can do with a
command, said once for all twelve; and that the host has no move while one runs. -/

namespace Sys2Proof.Machine

/-! ## A presented word -/

/-- The word on the command port is taken in Idle; the steps to the next block reset are counted down (log 8). -/
theorem step_present {s : State} {c : CmdWord} {rest : List OutsideMove} (hr : Ready s) (hb : noBlockReset s = true)
    (ho : s.outside = .present c :: rest) :
    step s = acceptWord c { s with outside := rest, resets := later s.resets } := by
  rw [step_idle hr.2 hb hr.1, idleStep, tick_outside, ho]
  rfl

theorem acceptWord_of_ok {c : CmdWord} {i : Instr} (h : decode c = .ok i) (s : State) : acceptWord c s = exec i s := by
  rw [acceptWord, h]

theorem acceptWord_of_illegal {c : CmdWord} (h : ∀ i, decode c ≠ .ok i) (s : State) : acceptWord c s = .next (reject s) := by
  unfold acceptWord
  split
  next i e => exact absurd e (h i)
  next => rfl

/-- In Idle a rejection changes the response alone (60_exceptions R224). -/
theorem reject_of_idle {s : State} (h : s.seq = .idle) : reject s = { s with resp := .rejected } := by
  cases s
  cases h
  rfl

/-- Settles O6: the word on the port is taken, and it is its command. -/
theorem stepRunsDecodedCommand : Obligations.StepRunsDecodedCommand := by
  intro s c rest i hr hb ho hd
  rw [step_present hr hb ho, acceptWord_of_ok hd]

/-- Settles O8: the word on the port is taken and rejected, SPIC being in Idle. -/
theorem illegalWordRejected : Obligations.IllegalWordRejected := by
  intro s c rest hr hb ho hd
  rw [step_present hr hb ho, acceptWord_of_illegal hd, reject_of_idle]
  exact hr.1

theorem decode_of_decodeTableWord {nbits w : Nat} {i : Instr} (h : decodeTableWord nbits w = some i) :
    decode (BitVec.ofNat 64 (w % 2 ^ nbits)) = .ok i := by
  unfold decodeTableWord at h
  split at h
  next e => cases h; exact e
  next => cases h

/-- Settles O7: `withFetchWord` makes SPIC ready with the word as the next move. -/
theorem fetchWordIsTaken : Obligations.FetchWordIsTaken := by
  intro s nbits w i h
  exact stepRunsDecodedCommand (s.withFetchWord nbits w) _ s.outside i ⟨rfl, rfl⟩ (noBlockReset_of_none rfl) rfl
    (decode_of_decodeTableWord h)

/-! ## What `exec` can do -/

/-- A command presented outside Idle, or after a fault, is refused by name (93 U4). -/
theorem accept_busy {lawful : Bool} {latch : State → State} {s : State} (h : ¬Ready s) :
    accept lawful latch s = .refused .commandWhileBusy := if_neg h

/-- The log after the acceptance of a command: CFGC samples the input clock, no other command makes a transaction (30_encoding
R96, 41_config R130). -/
def acceptedLog (i : Instr) (s : State) : List Access :=
  match i with
  | .cfgc _ _ _ _ => s.log ++ [.fIn s.fIn]
  | _ => s.log

/-- What latching the operands of command `i` in `s` makes of it, common to all twelve commands. -/
structure Latched (i : Instr) (s t : State) : Prop where
  resp : t.resp = s.resp := by rfl
  seq : t.seq = firstSeq i := by rfl
  fault : t.fault = s.fault := by rfl
  own : Legal i s → t.own = .bound
  cfg : t.cfg = s.cfg := by rfl
  ctrl1 : t.ctrl1 = s.ctrl1 := by rfl
  ctrl2 : t.ctrl2 = s.ctrl2 := by rfl
  stat : t.stat = s.stat := by rfl
  mem : t.mem = s.mem := by rfl
  env : t.env = s.env := by rfl
  outside : t.outside = s.outside := by rfl
  resets : t.resets = s.resets := by rfl
  log : t.log = acceptedLog i s := by rfl

/-- What makes a transfer lawful is its row of the legality table (30_encoding R97). -/
theorem transfer_lawful_iff (n : Nat) (w : Width) (s : State) :
    (fitsArg n && boundReady s && decide (s.width = w)) = true ↔
      fitsArg n = true ∧ s.own = .bound ∧ (s.cfg = .disabledConfigured ∨ s.cfg = .enabled) ∧ s.width = w := by
  simp only [Bool.and_eq_true, boundReady_iff, decide_eq_true_eq, and_assoc]

/-- Presenting a command is its acceptance: lawful exactly when it has an encoding and its row of the legality table holds, with
a latch that leaves all but the operands as they are (30_encoding R96, R97). -/
theorem exec_acceptance (i : Instr) (s : State) : ∃ lawful latch, exec i s = accept lawful latch s ∧
    (lawful = true ↔ i.WellFormed ∧ Legal i s) ∧ ∀ u, Latched i u (latch u) := by
  cases i <;> simp only [exec, execCfgc, execCfgp, execXfer8, execXfer16, execWr8, execWr16]
  case cfgc w cpol cpha rate =>
    refine ⟨_, _, rfl, ?_, fun u => ?_⟩
    · exact Bool.and_eq_true_iff.trans (and_congr_right' decide_eq_true_iff)
    · exact { own := fun _ => rfl }
  case cfgp w cpol cpha =>
    refine ⟨_, _, rfl, ?_, fun u => ?_⟩
    · exact decide_eq_true_iff.trans (and_iff_right rfl).symm
    · exact { own := fun _ => rfl }
  case ena | dis | to8 | to16 | rst | rel =>
    refine ⟨_, _, rfl, ?_, fun u => ?_⟩
    · exact (boundReady_iff s).trans (and_iff_right rfl).symm
    · exact { own := fun h => h.1 }
  case xfer8 n | xfer16 n | wr8 n | wr16 n =>
    refine ⟨_, _, rfl, ?_, fun u => ?_⟩
    · exact transfer_lawful_iff n _ s
    · exact { own := fun h => h.1 }

/-- Settles O11: presenting a command is an acceptance, which is refused outside Idle and after a fault. -/
theorem commandWhileBusyRefused : Obligations.CommandWhileBusyRefused := by
  intro i s h
  obtain ⟨lawful, latch, e, -, -⟩ := exec_acceptance i s
  rw [e, accept_busy h]

theorem exec_of_illegal {i : Instr} {s : State} (hr : Ready s) (hl : ¬Legal i s) :
    exec i s = .next { s with resp := .rejected } := by
  obtain ⟨lawful, latch, e, hiff, -⟩ := exec_acceptance i s
  have : lawful = false := by
    rw [← Bool.not_eq_true, hiff]
    exact fun h => hl h.2
  rw [e, accept_unlawful hr this, reject_of_idle hr.1]

theorem exec_of_legal {i : Instr} {s : State} (hr : Ready s) (hw : i.WellFormed) (hl : Legal i s) :
    ∃ t, exec i s = .next t ∧ Latched i { s with resp := .none } t := by
  obtain ⟨lawful, latch, e, hiff, h⟩ := exec_acceptance i s
  exact ⟨_, e.trans (accept_lawful hr (hiff.2 ⟨hw, hl⟩)), h _⟩

/-- Settles O9: a command is accepted exactly when its row of the legality table holds. -/
theorem illegalInStateRejected : Obligations.IllegalInStateRejected := by
  intro i s hr hw
  refine ⟨exec_of_illegal hr, fun hl => ?_⟩
  obtain ⟨t, e, h⟩ := exec_of_legal hr hw hl
  exact ⟨t, e, h.resp, h.seq⟩

/-- The answer cleared does not change what is legal (30_encoding R97). -/
theorem Legal.of_resp {i : Instr} {s : State} (h : Legal i s) (r : Resp) : Legal i { s with resp := r } := by
  cases i <;> exact h

/-- Settles O10: what a lawful command's latch leaves, from the state with `resp` None. -/
theorem legalCommandAccepted : Obligations.LegalCommandAccepted := by
  intro i s hr hw hl
  obtain ⟨t, e, h⟩ := exec_of_legal hr hw hl
  refine ⟨t, e, h.resp, h.seq, h.fault.trans hr.2, h.own (hl.of_resp _), h.cfg, h.ctrl1, h.ctrl2, h.stat, h.mem, h.env,
    h.outside, h.resets, h.log.trans ?_⟩
  cases i <;> rfl

end Sys2Proof.Machine
end

section
/-! PROOFS. While a command runs the host has no move (30_encoding R96): no micro-step outside Idle touches what the host and the
collaborator will do. One rule per shared operation. -/

namespace Sys2Proof.Machine

/-- `t` comes from `s` without a change to what acts from outside: the moves and the block resets to come, the input clock and the
parameter DRAIN_RETRIES. -/
structure HostFrame (s t : State) : Prop where
  outside : t.outside = s.outside := by rfl
  resets : t.resets = s.resets := by rfl
  fIn : t.fIn = s.fIn := by rfl
  drainRetries : t.drainRetries = s.drainRetries := by rfl

namespace HostFrame

theorem trans {s u t : State} (h : HostFrame s u) (k : HostFrame u t) : HostFrame s t :=
  ⟨k.outside.trans h.outside, k.resets.trans h.resets, k.fIn.trans h.fIn, k.drainRetries.trans h.drainRetries⟩

protected theorem respondError (r : Resp) (s : State) : HostFrame s (respondError r s) := by
  rcases respondError_cases r s with ⟨-, e⟩ | ⟨-, e⟩ <;> rw [e] <;> exact {}

protected theorem failTransfer (w : Width) (r : Resp) (s : State) : HostFrame s (failTransfer w r s) :=
  HostFrame.trans {} (.respondError r _)

protected theorem drainBlocked (s : State) : HostFrame s (drainBlocked s) := by
  unfold drainBlocked
  split
  · exact {}
  · exact .failTransfer _ _ s

protected theorem pollThen {kind : PollKind} {f g : State → State} {e : Resp → State → State}
    (hf : ∀ s, HostFrame s (f s)) (hg : ∀ s, HostFrame s (g s)) (he : ∀ r s, HostFrame s (e r s)) (s : State) :
    HostFrame s (pollThen kind f g e s) := by
  refine HostFrame.trans (u := snapshot s) {} ?_
  rcases pollThen_cases kind f g e s with ⟨-, p⟩ | ⟨-, p⟩ | ⟨-, p⟩ | ⟨-, p⟩ <;> rw [p]
  · exact hf _
  · exact hg _
  · exact he _ _
  · exact he _ _

protected theorem sendElem {w : Width} {q : Seq} {s t : State} (h : sendElem w q s = .next t) : HostFrame s t := by
  obtain ⟨-, rfl⟩ := sendElem_next h
  exact {}

protected theorem storeElem {w : Width} {q : Seq} {s t : State} (h : storeElem w q s = .next t) : HostFrame s t := by
  obtain ⟨-, rfl⟩ := storeElem_next h
  exact {}

end HostFrame

/-- Outside Idle no micro-step takes a move from outside, whichever command runs. -/
theorem microStep_hostFrame {s t : State} (hq : s.seq ≠ .idle) (h : microStep s = .next t) : HostFrame s t := by
  unfold microStep at h
  cases e : s.seq <;> simp only [e] at h
  case idle => exact absurd e hq
  case cCtrl => unfold cfgcCtrl at h; split at h <;> cases h <;> exact {}
  case x8FillPoll | x16SendPoll | x16RecvPoll => cases h; exact .pollThen (fun _ => {}) (fun _ => {}) (.failTransfer _) s
  case x8ReadPoll => cases h; exact .pollThen (fun _ => {}) (fun _ => {}) (.failTransfer _) s
  case x8DrainPoll => cases h; exact .pollThen (fun _ => {}) .drainBlocked (.failTransfer _) s
  case w8InitPoll | w16Poll => cases h; exact .pollThen (fun _ => {}) (fun _ => {}) .respondError s
  case w8FinalPoll | w16FinalPoll => cases h; exact .pollThen (fun _ => {}) (fun _ => {}) (fun _ _ => {}) s
  case x8FillSend | x16Send | w16Send => exact .sendElem h
  case w8Send =>
    unfold wr8Send at h
    split at h
    · cases h
    · exact HostFrame.trans (u := { s with cap := s.cap - 1#3 }) {} (.sendElem h)
  case x8ReadStore | x16Store => exact .storeElem h
  case x8DrainStore => exact HostFrame.trans (u := { s with tries := 0 }) {} (.storeElem h)
  case x8Final => cases h; split <;> exact {}
  case x16Test => cases h; split <;> exact {}
  all_goals cases h; exact {}

/-- Settles O12: the step is a micro-step of the state in which the block resets are counted down. -/
theorem noHostMoveWhileRunning : Obligations.NoHostMoveWhileRunning := by
  intro s t hq hb h
  obtain ⟨outside, resets, fIn, drainRetries⟩ := microStep_hostFrame (s := tick s) hq (step_next_microStep hb h).2
  exact ⟨outside, resets, fIn, drainRetries⟩

end Sys2Proof.Machine
end

section
/-! PROOFS. The register words of 30_encoding R103: each packed word as a number, from which the place of every field and the
reserved bits are read off; and that a write of one control register leaves the words of the others. -/

namespace Sys2Proof.Machine

/-! ## The packed words as numbers -/

theorem packCtrl1_toNat (c : Ctrl1) : (packCtrl1 c).toNat =
    c.bidimode.toNat * 2 ^ 15 + c.bidioe.toNat * 2 ^ 14 + c.rxonly.toNat * 2 ^ 10 + c.ssm.toNat * 2 ^ 9 +
      c.ssi.toNat * 2 ^ 8 + c.lsbfirst.toNat * 2 ^ 7 + c.en.toNat * 2 ^ 6 + c.br.toNat * 2 ^ 3 + c.mstr.toNat * 2 ^ 2 +
      c.cpol.toNat * 2 ^ 1 + c.cpha.toNat := by
  have e : (packCtrl1 c).toNat = BitVec.toNat (w := 1 + 1 + 3 + 1 + 1 + 1 + 1 + 1 + 3 + 1 + 1 + 1)
      (BitVec.ofBool c.bidimode ++ BitVec.ofBool c.bidioe ++ 0#3 ++ BitVec.ofBool c.rxonly ++ BitVec.ofBool c.ssm ++
        BitVec.ofBool c.ssi ++ BitVec.ofBool c.lsbfirst ++ BitVec.ofBool c.en ++ c.br ++ BitVec.ofBool c.mstr ++
        BitVec.ofBool c.cpol ++ BitVec.ofBool c.cpha) := rfl
  rw [e]
  simp only [toNat_append_add, BitVec.toNat_ofNat, BitVec.toNat_ofBool]
  omega

theorem packCtrl2_toNat (c : Ctrl2) :
    (packCtrl2 c).toNat = c.rxth.toNat * 2 ^ 12 + c.dsize.toNat * 2 ^ 11 + c.ssoe.toNat * 2 ^ 2 := by
  have e : (packCtrl2 c).toNat = BitVec.toNat (w := 3 + 1 + 1 + 8 + 1 + 2)
      (0#3 ++ BitVec.ofBool c.rxth ++ BitVec.ofBool c.dsize ++ 0#8 ++ BitVec.ofBool c.ssoe ++ 0#2) := rfl
  rw [e]
  simp only [toNat_append_add, BitVec.toNat_ofNat, BitVec.toNat_ofBool]
  omega

theorem packStatus_toNat (s : Status) : (packStatus s).toNat =
    s.txlvl.toNat * 2 ^ 11 + s.bsy.toNat * 2 ^ 7 + s.ovr.toNat * 2 ^ 6 + s.modf.toNat * 2 ^ 5 + s.txe.toNat * 2 ^ 1 +
      s.rxne.toNat := by
  have e : (packStatus s).toNat = BitVec.toNat (w := 3 + 2 + 3 + 1 + 1 + 1 + 3 + 1 + 1)
      (0#3 ++ s.txlvl ++ 0#3 ++ BitVec.ofBool s.bsy ++ BitVec.ofBool s.ovr ++ BitVec.ofBool s.modf ++ 0#3 ++
        BitVec.ofBool s.txe ++ BitVec.ofBool s.rxne) := rfl
  rw [e]
  simp only [toNat_append_add, BitVec.toNat_ofNat, BitVec.toNat_ofBool]
  omega

/-! ## Bits of a word, from its number -/

theorem getLsbD_of_toNat {v : Half} {k : Nat} {b : Bool} (h : v.toNat / 2 ^ k % 2 = b.toNat) : v.getLsbD k = b := by
  rw [BitVec.getLsbD, Nat.testBit_eq_decide_div_mod_eq, h]
  cases b <;> rfl

theorem extractLsb'_of_toNat {v : Half} {start len : Nat} {x : BitVec len} (h : v.toNat / 2 ^ start % 2 ^ len = x.toNat) :
    v.extractLsb' start len = x := by
  apply BitVec.eq_of_toNat_eq
  rw [BitVec.extractLsb'_toNat, Nat.shiftRight_eq_div_pow, h]

/-- A word reads as 0 under a mask of which it has no bit. -/
theorem and_eq_zero_of_bits {v m : Half} (h : ∀ k < 16, m.getLsbD k = true → v.toNat / 2 ^ k % 2 = 0) : v &&& m = 0#16 := by
  apply BitVec.eq_of_getLsbD_eq
  intro k hk
  rw [BitVec.getLsbD_and, BitVec.getLsbD_zero]
  cases hm : m.getLsbD k
  · exact Bool.and_false _
  · rw [getLsbD_of_toNat (b := false) (h k hk hm)]; rfl

/-! ## The place of each field -/

theorem packCtrl1_fields (c : Ctrl1) :
    packCtrl1 c &&& 0x3800#16 = 0#16 ∧
    (packCtrl1 c).getLsbD 0 = c.cpha ∧ (packCtrl1 c).getLsbD 1 = c.cpol ∧ (packCtrl1 c).getLsbD 2 = c.mstr ∧
    (packCtrl1 c).extractLsb' 3 3 = c.br ∧ (packCtrl1 c).getLsbD 6 = c.en ∧ (packCtrl1 c).getLsbD 7 = c.lsbfirst ∧
    (packCtrl1 c).getLsbD 8 = c.ssi ∧ (packCtrl1 c).getLsbD 9 = c.ssm ∧ (packCtrl1 c).getLsbD 10 = c.rxonly ∧
    (packCtrl1 c).getLsbD 14 = c.bidioe ∧ (packCtrl1 c).getLsbD 15 = c.bidimode := by
  have e := packCtrl1_toNat c
  have := c.cpha.toNat_lt
  have := c.cpol.toNat_lt
  have := c.mstr.toNat_lt
  have := c.br.isLt
  have := c.en.toNat_lt
  have := c.lsbfirst.toNat_lt
  have := c.ssi.toNat_lt
  have := c.ssm.toNat_lt
  have := c.rxonly.toNat_lt
  have := c.bidioe.toNat_lt
  have := c.bidimode.toNat_lt
  refine ⟨and_eq_zero_of_bits fun k hk hm => ?_, getLsbD_of_toNat ?_, getLsbD_of_toNat ?_, getLsbD_of_toNat ?_,
    extractLsb'_of_toNat ?_, getLsbD_of_toNat ?_, getLsbD_of_toNat ?_, getLsbD_of_toNat ?_, getLsbD_of_toNat ?_,
    getLsbD_of_toNat ?_, getLsbD_of_toNat ?_, getLsbD_of_toNat ?_⟩
  · have reserved : k = 11 ∨ k = 12 ∨ k = 13 := by revert k; decide
    rcases reserved with rfl | rfl | rfl <;> omega
  all_goals omega

theorem unpackCtrl1_packCtrl1 (c : Ctrl1) : unpackCtrl1 (packCtrl1 c) = c := by
  obtain ⟨-, cpha, cpol, mstr, br, en, lsbfirst, ssi, ssm, rxonly, bidioe, bidimode⟩ := packCtrl1_fields c
  rw [unpackCtrl1, cpha, cpol, mstr, br, en, lsbfirst, ssi, ssm, rxonly, bidioe, bidimode]

theorem packCtrl2_fields (c : Ctrl2) :
    packCtrl2 c &&& 0xE7FB#16 = 0#16 ∧
    (packCtrl2 c).getLsbD 2 = c.ssoe ∧ (packCtrl2 c).getLsbD 11 = c.dsize ∧ (packCtrl2 c).getLsbD 12 = c.rxth := by
  have e := packCtrl2_toNat c
  have := c.ssoe.toNat_lt
  have := c.dsize.toNat_lt
  have := c.rxth.toNat_lt
  refine ⟨and_eq_zero_of_bits fun k hk hm => ?_, getLsbD_of_toNat ?_, getLsbD_of_toNat ?_, getLsbD_of_toNat ?_⟩
  · have listed : k ≠ 2 ∧ k ≠ 11 ∧ k ≠ 12 := by revert k; decide
    interval_cases k <;> omega
  all_goals omega

theorem unpackCtrl2_packCtrl2 (c : Ctrl2) : unpackCtrl2 (packCtrl2 c) = c := by
  obtain ⟨-, ssoe, dsize, rxth⟩ := packCtrl2_fields c
  rw [unpackCtrl2, ssoe, dsize, rxth]

theorem packStatus_fields (s : Status) :
    packStatus s &&& 0xE71C#16 = 0#16 ∧
    (packStatus s).getLsbD 0 = s.rxne ∧ (packStatus s).getLsbD 1 = s.txe ∧ (packStatus s).getLsbD 5 = s.modf ∧
    (packStatus s).getLsbD 6 = s.ovr ∧ (packStatus s).getLsbD 7 = s.bsy ∧ (packStatus s).extractLsb' 11 2 = s.txlvl := by
  have e := packStatus_toNat s
  have := s.rxne.toNat_lt
  have := s.txe.toNat_lt
  have := s.modf.toNat_lt
  have := s.ovr.toNat_lt
  have := s.bsy.toNat_lt
  have := s.txlvl.isLt
  refine ⟨and_eq_zero_of_bits fun k hk hm => ?_, getLsbD_of_toNat ?_, getLsbD_of_toNat ?_, getLsbD_of_toNat ?_,
    getLsbD_of_toNat ?_, getLsbD_of_toNat ?_, extractLsb'_of_toNat ?_⟩
  · have listed : k ≠ 0 ∧ k ≠ 1 ∧ k ≠ 5 ∧ k ≠ 6 ∧ k ≠ 7 ∧ k ≠ 11 ∧ k ≠ 12 := by revert k; decide
    interval_cases k <;> omega
  all_goals omega

theorem unpackStatus_packStatus (s : Status) : unpackStatus (packStatus s) = s := by
  obtain ⟨-, rxne, txe, modf, ovr, bsy, txlvl⟩ := packStatus_fields s
  rw [unpackStatus, rxne, txe, modf, ovr, bsy, txlvl]

/-- An 8-bit access of `DATA` uses the low byte. -/
theorem packData_w8 (v : Half) : packData .w8 v = v &&& 0x00FF#16 := by
  apply BitVec.eq_of_toNat_eq
  rw [packData, narrow_w8_toNat, BitVec.toNat_and]
  exact (Nat.and_two_pow_sub_one_eq_mod v.toNat 8).symm

/-! ## What a write of one register leaves -/

theorem applyCtrl1_other {f : FieldVal} (h : fieldRegister f ≠ .ctrl1) (c : Ctrl1) : applyCtrl1 c f = c := by
  cases f with
  | ssoe | dsize | rxth => rfl
  | _ => exact absurd rfl h

theorem applyCtrl2_other {f : FieldVal} (h : fieldRegister f ≠ .ctrl2) (c : Ctrl2) : applyCtrl2 c f = c := by
  cases f with
  | ssoe | dsize | rxth => exact absurd rfl h
  | _ => rfl

/-- MSTR and EN stand in `CTRL1` (30_encoding R103). -/
theorem namesRoleEnable_other {f : FieldVal} (h : fieldRegister f ≠ .ctrl1) : namesRoleEnable f = false := by
  cases f with
  | mstr | en => exact absurd rfl h
  | _ => rfl

/-- Writes each of which leaves a register leave it together. -/
theorem foldl_unchanged {σ : Type} {apply : σ → FieldVal → σ} {fs : List FieldVal} {c : σ} (h : ∀ f ∈ fs, apply c f = c) :
    fs.foldl apply c = c := by
  induction fs with
  | nil => rfl
  | cons f fs ih =>
    rw [List.foldl_cons, h f List.mem_cons_self]
    exact ih fun g hg => h g (List.mem_cons_of_mem f hg)

theorem ctrl1AfterWrite_unchanged {fs : List FieldVal} {s : State} (h : ∀ f ∈ fs, fieldRegister f ≠ .ctrl1) :
    ctrl1AfterWrite fs s = s.ctrl1 := by
  have hn : fs.any namesRoleEnable = false :=
    List.any_eq_false.2 fun f hf => by rw [namesRoleEnable_other (h f hf)]; exact Bool.false_ne_true
  rw [ctrl1AfterWrite_other hn, foldl_unchanged fun f hf => applyCtrl1_other (h f hf) _]

/-- Where MSTR and EN are specified, a write uses no free value. -/
theorem writeDraws_closed {fs : List FieldVal} {s : State} (h : s.roleEnableOpen = false) : writeDraws fs s = 0 := by
  simp [writeDraws, h]

/-- A write of the fields of one register leaves the words of the others. -/
theorem registerWord_setFields {fs : List FieldVal} {r q : RegName} {s : State} (h : ∀ f ∈ fs, fieldRegister f = r)
    (hne : q ≠ r) (hq : q = .ctrl1 ∨ q = .ctrl2 ∨ s.roleEnableOpen = false) :
    registerWord q (setFields fs s) = registerWord q s := by
  have other : ∀ f ∈ fs, fieldRegister f ≠ q := fun f hf e => hne (e.symm.trans (h f hf))
  cases q with
  | ctrl1 => rw [registerWord, setFields_ctrl1, ctrl1AfterWrite_unchanged other, registerWord]
  | ctrl2 => rw [registerWord, setFields_ctrl2, foldl_unchanged fun f hf => applyCtrl2_other (other f hf) _, registerWord]
  | stat | data =>
    have closed : s.roleEnableOpen = false := by simpa using hq
    simp only [registerWord, setFields_env, setFields_draws, setFields_width, writeDraws_closed closed, Nat.add_zero]

/-- Settles O5: the words as numbers give the places of the fields; reads return the words by definition. -/
theorem packingRoundTrip : Obligations.PackingRoundTrip := by
  refine ⟨fun c => ⟨unpackCtrl1_packCtrl1 c, packCtrl1_fields c⟩, fun c => ⟨unpackCtrl2_packCtrl2 c, packCtrl2_fields c⟩,
    fun s => ⟨unpackStatus_packStatus s, packStatus_fields s⟩, fun v => ⟨rfl, packData_w8 v⟩, ⟨rfl, rfl, rfl, rfl⟩,
    fun fs r q s => registerWord_setFields, fun s => ⟨⟨_, rfl, rfl, rfl⟩, ⟨_, rfl, rfl⟩, ⟨_, rfl, rfl⟩, rfl⟩⟩

end Sys2Proof.Machine
end

section
/-! PROOFS. The Clock Divisor Calculator (40_divisor R120 to R125). One fact about the buckets carries all four statements: below
selector 7, a selector is exceeded exactly when the ratio has reached three times its power of two. -/

namespace Sys2Proof.Machine

/-! ## The buckets -/

/-- The boundary between selector `j` and the next is the ratio `3·2^j` (40_divisor R122). -/
theorem lt_bucket_iff (r j : Nat) : j < (bucket r).toNat ↔ j < 7 ∧ 3 * 2 ^ j ≤ r := by
  by_cases hj : j < 7
  · unfold bucket
    interval_cases j <;> split_ifs <;> simp <;> omega
  · have := (bucket r).isLt
    exact iff_of_false (by omega) fun h => hj h.1

theorem bucket_mono {r r' : Nat} (h : r ≤ r') : (bucket r).toNat ≤ (bucket r').toNat :=
  le_of_forall_lt fun j hj => by
    rw [lt_bucket_iff] at hj ⊢
    exact ⟨hj.1, hj.2.trans h⟩

/-- A selector below the bucket is one whose boundary the ratio has reached. -/
theorem boundary_le_of_lt_bucket {r : Nat} {j : BitVec 3} (h : j < bucket r) : 3 * 2 ^ j.toNat ≤ r :=
  ((lt_bucket_iff r j.toNat).1 (BitVec.lt_def.1 h)).2

/-- The ratio is below the boundary of its own bucket, but for the last, which has none. -/
theorem bucket_eq_seven_or_lt (r : Nat) : bucket r = 7#3 ∨ r < 3 * 2 ^ (bucket r).toNat := by
  have hself := mt (lt_bucket_iff r (bucket r).toNat).2 (lt_irrefl _)
  have hlt := (bucket r).isLt
  refine or_iff_not_imp_left.2 fun hne => ?_
  have : (bucket r).toNat ≠ 7 := fun h => hne (BitVec.eq_of_toNat_eq h)
  exact not_le.1 fun hle => hself ⟨by omega, hle⟩

/-- A selector whose boundary the ratio has not reached, while it has reached the one before, is the bucket. -/
theorem bucket_eq_of_boundaries {r : Nat} {k : BitVec 3} (low : k = 0#3 ∨ 3 * 2 ^ (k.toNat - 1) ≤ r)
    (high : k = 7#3 ∨ r < 3 * 2 ^ k.toNat) : bucket r = k := by
  have hlt := (bucket r).isLt
  have hk := k.isLt
  apply BitVec.eq_of_toNat_eq
  apply le_antisymm
  · obtain rfl | high := high
    · exact Nat.le_of_lt_succ hlt
    · exact not_lt.1 fun h => absurd ((lt_bucket_iff r k.toNat).1 h).2 (not_le.2 high)
  · obtain rfl | low := low
    · exact Nat.zero_le _
    · exact Nat.le_of_pred_lt ((lt_bucket_iff r (k.toNat - 1)).2 ⟨by omega, low⟩)

/-! ## Where the divisor is defined -/

/-- Settles O29: the truncated ratio is 0 exactly where `f_in < f_req`. -/
theorem divisorUndefinedExactly : Obligations.DivisorUndefinedExactly := by
  intro fin freq
  unfold divisor
  split_ifs with hzero hratio
  · exact iff_of_true rfl (.inl hzero)
  · exact iff_of_true rfl (Nat.div_eq_zero_iff.1 hratio)
  · exact iff_of_false nofun (mt Nat.div_eq_zero_iff.2 hratio)

theorem divisor_eq_bucket {fin freq : Word} (hpos : 0 < freq.toNat) (hle : freq.toNat ≤ fin.toNat) :
    divisor fin freq = some (bucket (fin.toNat / freq.toNat)) := by
  rw [divisor, if_neg hpos.ne', if_neg (Nat.div_pos hle hpos).ne']

/-- A selector comes from rates that meet the precondition, and is the bucket of their ratio (40_divisor R121 to R123). -/
theorem divisor_eq_some {fin freq : Word} {k : BitVec 3} (h : divisor fin freq = some k) :
    0 < freq.toNat ∧ k = bucket (fin.toNat / freq.toNat) := by
  have hdef := mt (divisorUndefinedExactly fin freq).2 (by rw [h]; nofun)
  obtain ⟨hpos, hle⟩ := not_or.1 hdef
  rw [divisor_eq_bucket (Nat.pos_of_ne_zero hpos) (not_lt.1 hle)] at h
  exact ⟨Nat.pos_of_ne_zero hpos, (Option.some.inj h).symm⟩

/-! ## The selector against the ratio -/

/-- Settles O28: each row is the stretch between two boundaries, and the least `k` is read off the same boundaries. -/
theorem divisorClosedForm : Obligations.DivisorClosedForm := by
  intro fin freq hpos hle
  refine ⟨_, divisor_eq_bucket hpos hle, ?_, ?_, ?_, ?_, ?_, ?_, ?_, ?_, bucket_eq_seven_or_lt _,
    fun j => boundary_le_of_lt_bucket⟩
  all_goals
    intro h
    apply bucket_eq_of_boundaries <;> simp <;> omega

/-- The truncated ratio does not decrease as the exact one grows, the exact ratios compared by their cross products. -/
theorem truncated_ratio_mono {a b c d : Nat} (hb : 0 < b) (hd : 0 < d) (h : a * d ≤ c * b) : a / b ≤ c / d :=
  calc a / b = a * d / (b * d) := (Nat.mul_div_mul_right a b hd).symm
    _ ≤ c * b / (b * d) := Nat.div_le_div_right h
    _ = c / d := by rw [Nat.mul_comm b d, Nat.mul_div_mul_right c d hb]

/-- Settles O30: truncating keeps the order of the ratios, and so do the buckets. -/
theorem divisorMonotone : Obligations.DivisorMonotone := by
  intro fin fin' freq freq' k k' hk hk' hratio
  obtain ⟨hpos, rfl⟩ := divisor_eq_some hk
  obtain ⟨hpos', rfl⟩ := divisor_eq_some hk'
  exact bucket_mono (truncated_ratio_mono hpos hpos' hratio)

/-- The effective rate of a selector below the chosen one exceeds the requested rate, for its ratio is at least `3·2^j` where
the division is by `2·2^j` only (40_divisor R122, R125). -/
theorem rateExceeds_of_lt_divisor {fin freq : Word} {k j : BitVec 3} (hk : divisor fin freq = some k) (hj : j < k) :
    rateExceeds fin freq j := by
  obtain ⟨hpos, rfl⟩ := divisor_eq_some hk
  have hreached : 3 * 2 ^ j.toNat * freq.toNat ≤ fin.toNat := (Nat.le_div_iff_mul_le hpos).1 (boundary_le_of_lt_bucket hj)
  calc freq.toNat * 2 ^ (j.toNat + 1) = 2 * (2 ^ j.toNat * freq.toNat) := by ring
    _ < 3 * (2 ^ j.toNat * freq.toNat) := Nat.mul_lt_mul_of_pos_right (by decide) (by positivity)
    _ = 3 * 2 ^ j.toNat * freq.toNat := (Nat.mul_assoc ..).symm
    _ ≤ fin.toNat := hreached

/-- Settles O31: below the selector every effective rate exceeds the requested one, whether or not the selector's own does. -/
theorem divisorIsLeastWithinRate : Obligations.DivisorIsLeastWithinRate :=
  fun _ _ _ hk _ _ hj => rateExceeds_of_lt_divisor hk hj

end Sys2Proof.Machine
end

section
/-! PROOFS. CFGC from its acceptance to `C_CTRL` (41_config R130 to R132), as flat updates of the state, and the fault that a pair
of rates without a divisor raises there (60_exceptions R226). -/

namespace Sys2Proof.Machine

/-! ## From acceptance to C_CTRL -/

/-- Acceptance of CFGC with a free handle (41_config R130). -/
theorem exec_cfgc_of_free (w : Width) (cpol cpha : Bool) {rate : Nat} {s : State} (hr : Ready s) (ho : s.own = .free)
    (hrate : rate < 2 ^ 32) : exec (.cfgc w cpol cpha rate) s = .next { s with
      own := .bound, role := .controller, cpol := cpol, cpha := cpha, width := w, freq := BitVec.ofNat 32 rate,
      fin := s.fIn, resp := .none, seq := .cClk, log := s.log ++ [.fIn s.fIn] } := by
  have lawful : (fitsArg rate && decide (s.own = .free)) = true :=
    Bool.and_eq_true_iff.2 ⟨decide_eq_true hrate, decide_eq_true ho⟩
  rw [exec, execCfgc, accept_lawful hr lawful]
  rfl

/-- What `s` in `C_CLK` has become when it reaches `C_CTRL` (41_config R131, R132): the clock is on, the reset pulse is complete,
EN is written 0 over the fields of the pulse. -/
def atControllerFields (s : State) : State :=
  { s with
    cfg := .disabledConfiguring, seq := .cCtrl
    ctrl1 := ctrl1AfterPulse, ctrl2 := ctrl2AfterPulse, stat := Config.freeStatus s.draws, draws := s.draws + 1
    env := envAfterPulse s.env, clkEn := true, rstLine := false, roleEnableOpen := false
    log := s.log ++ [.clkEnable, .rstAssert, .rstDeassert, .regWrite [.en false]] }

/-- `C_DIS` where every control field is 0 already (41_config R132). -/
theorem cfgcDis_afterPulse {s : State} (ho : s.roleEnableOpen = false) (h1 : s.ctrl1 = ctrl1AfterPulse) :
    cfgcDis s = .next { s with cfg := .disabledConfiguring, seq := .cCtrl, log := s.log ++ [.regWrite [.en false]] } := by
  rw [cfgcDis, disableStep, regWrite_closed ho, h1]
  cases s
  cases h1
  rfl

/-- A run that begins with a micro-step, where there is no fault and no block reset comes (10_state R24). -/
theorem runSteps_microStep {k : Nat} {s s' t : State} (hf : s.fault = .noFault) (hn : NoResetToCome s)
    (h : microStep s = .next s') (h2 : runSteps k s' = .next t) : runSteps (k + 1) s = .next t :=
  runSteps_first ((step_eq_microStep_of_none hf hn).trans h) h2

/-- The first four micro-steps of CFGC, whatever the rates are. -/
theorem runSteps_cClk_to_cCtrl {s : State} (hf : s.fault = .noFault) (hn : NoResetToCome s) (hq : s.seq = .cClk) :
    runSteps 4 s = .next (atControllerFields s) := by
  have hclk : microStep s = cfgcClk s := by rw [microStep, hq]
  refine runSteps_microStep hf hn (hclk.trans (cfgcClk_eq s)) ?_
  refine runSteps_microStep hf hn (cfgcRstA_eq _) ?_
  refine runSteps_microStep hf hn (cfgcRstD_eq _) ?_
  refine runSteps_microStep hf hn (cfgcDis_afterPulse rfl rfl) ?_
  simp [atControllerFields]

/-! ## The sequencer fault -/

/-- `C_CTRL` without a divisor raises the fault and writes nothing (60_exceptions R226). -/
theorem cfgcCtrl_of_undefined {s : State} (h : divisor s.fin s.freq = none) : cfgcCtrl s = .next (raiseFault s) := by
  rw [cfgcCtrl, h]

/-- A faulted sequencer has no step (60_exceptions R226). -/
theorem step_of_faulted {s : State} (hf : s.fault = .divisorUndefined) (hb : noBlockReset s = true) :
    step s = .fault .divisorUndefined := by
  rw [step, machineStep, if_neg (by simp [(noBlockReset_iff s).1 hb]), sequencerStep, tick_fault, hf]

/-- Without a divisor the fifth micro-step of CFGC raises the fault (41_config R132). -/
theorem runSteps_cClk_faults {s : State} (hf : s.fault = .noFault) (hn : NoResetToCome s) (hq : s.seq = .cClk)
    (hd : divisor s.fin s.freq = none) : runSteps 5 s = .next (raiseFault (atControllerFields s)) :=
  (runSteps_trans (k := 1) (runSteps_cClk_to_cCtrl hf hn hq)).trans
    (runSteps_microStep (s := atControllerFields s) hf hn (cfgcCtrl_of_undefined hd) (runSteps_zero _))

/-- Settles O15: four steps to `C_CTRL`, and the fifth raises the fault there. -/
theorem divisorFaultStopsConstruction : Obligations.DivisorFaultStopsConstruction := by
  intro w cpol cpha rate s hr ho hn hrate hbad
  have hundef : divisor s.fIn (BitVec.ofNat 32 rate) = none := by
    rw [divisorUndefinedExactly, BitVec.toNat_ofNat, Nat.mod_eq_of_lt hrate]
    exact hbad
  refine ⟨_, _, exec_cfgc_of_free w cpol cpha hr ho hrate, runSteps_cClk_faults hr.2 hn rfl hundef, ?_⟩
  exact ⟨rfl, rfl, rfl, rfl, rfl, rfl, rfl, rfl, rfl, List.append_assoc .., step_of_faulted rfl (noBlockReset_of_none hn)⟩

end Sys2Proof.Machine
end

section
/-! PROOFS. ENA, DIS, TO8, TO16, RST and REL from acceptance to the end (41_config R139 to R146): each micro-step as a flat
update of the state, and the runs they make. -/

namespace Sys2Proof.Machine

/-! ## Acceptance and a single step -/

/-- Acceptance of a command that latches nothing, over a live handle (30_encoding R96, R97). -/
theorem accept_goto {s : State} (h : ReadyHandle s) (q : Seq) :
    accept (boundReady s) (goto q) s = .next { s with resp := .none, seq := q } := accept_lawful h.1 h.2

/-- A run of one micro-step, where there is no fault and no block reset comes. -/
theorem runSteps_one {s t : State} (hf : s.fault = .noFault) (hn : NoResetToCome s) (h : microStep s = .next t) :
    runSteps 1 s = .next t := runSteps_microStep hf hn h (runSteps_zero t)

/-! ## The enable bit -/

/-- The write of EN that ends ENA, DIS and the two constructions, where MSTR and EN are specified (41_config R134, R139, R140). -/
theorem finish_writeEnable_closed {s : State} (ho : s.roleEnableOpen = false) (b : Bool) (c : Lifecycle) :
    finish .ok { regWrite [.en b] s with cfg := c } = { s with
      ctrl1 := { s.ctrl1 with en := b }, cfg := c, resp := .ok, seq := .idle, log := s.log ++ [.regWrite [.en b]] } := by
  rw [regWrite_closed ho]; rfl

/-- The same write while a ModeFault response leaves MSTR and EN unspecified (93 U9; log 7). -/
theorem finish_writeEnable_open {s : State} (ho : s.roleEnableOpen = true) (b : Bool) (c : Lifecycle) :
    finish .ok { regWrite [.en b] s with cfg := c } = { s with
      ctrl1 := { s.ctrl1 with mstr := Config.freeBit s.draws, en := Config.freeBit (s.draws + 1) }, draws := s.draws + 2,
      cfg := c, resp := .ok, seq := .idle, log := s.log ++ [.regWrite [.en b]] } := by
  simp [finish, regWrite, note, setFields, ctrl1AfterWrite, writeDraws, namesRoleEnable, applyCtrl1, applyCtrl2, ho]

/-- Settles O18: the write of EN from the accepted state, for ENA and for DIS. -/
theorem enableDisableComplete : Obligations.EnableDisableComplete := by
  intro s h hn ho
  have ⟨hidle, hfault⟩ := h.1
  refine ⟨⟨_, accept_goto h .eWrite, rfl, ?_⟩, ⟨_, accept_goto h .dWrite, rfl, ?_⟩⟩ <;> rw [hidle]
  · exact runSteps_one hfault hn (congrArg _ (finish_writeEnable_closed ho true .enabled))
  · exact runSteps_one hfault hn (congrArg _ (finish_writeEnable_closed ho false .disabledConfigured))

/-- Settles O19: the same with the two free values of the write. -/
theorem enableDisableAfterModeFault : Obligations.EnableDisableAfterModeFault := by
  intro s h hn ho
  have ⟨hidle, hfault⟩ := h.1
  refine ⟨⟨_, Config.freeBit s.draws, Config.freeBit (s.draws + 1), accept_goto h .eWrite, ?_⟩,
    ⟨_, Config.freeBit s.draws, Config.freeBit (s.draws + 1), accept_goto h .dWrite, ?_⟩⟩ <;> rw [hidle]
  · exact runSteps_one hfault hn (congrArg _ (finish_writeEnable_open ho true .enabled))
  · exact runSteps_one hfault hn (congrArg _ (finish_writeEnable_open ho false .disabledConfigured))

/-! ## Release -/

/-- Settles O23: `L_REL` from the accepted state. -/
theorem releaseCompletes : Obligations.ReleaseCompletes := by
  intro s h hn
  have ⟨hidle, hfault⟩ := h.1
  refine ⟨_, accept_goto h .lRel, rfl, ?_⟩
  rw [hidle]
  exact runSteps_one hfault hn (relRelease_eq _)

/-! ## Width conversion -/

/-- The command that converts a handle to width `w` (41_config R141, R142). -/
def conversionTo : Width → Instr
  | .w8 => .to8
  | .w16 => .to16

/-- The state in which a conversion to `w` leaves a handle at rest (41_config R141). -/
def converted (w : Width) (s : State) : State :=
  { s with
    ctrl2 := group2Of w, width := w, resp := .ok
    log := s.log ++ [.regWrite [.ssoe false, .rxth (th w), .dsize (ds w)]] }

/-- Acceptance of a conversion, whatever the current width. -/
theorem exec_conversionTo {s : State} (h : ReadyHandle s) (w : Width) :
    exec (conversionTo w) s = .next { s with resp := .none, seq := .vWrite w } := by
  cases w <;> exact accept_goto h _

/-- `V_WRITE` after the acceptance (41_config R141). -/
theorem convertWrite_accepted {s : State} (hq : s.seq = .idle) (w : Width) :
    convertWrite w { s with resp := .none, seq := .vWrite w } = .next (converted w s) := by
  rw [convertWrite, regWrite_other rfl, converted, hq]; rfl

theorem runSteps_conversion {s : State} (h : ReadyHandle s) (hn : NoResetToCome s) (w : Width) :
    runSteps 1 { s with resp := .none, seq := .vWrite w } = .next (converted w s) :=
  runSteps_one h.1.2 hn (convertWrite_accepted h.1.1 w)

/-- Settles O20: acceptance and `V_WRITE`, for either target. -/
theorem widthConversionCompletes : Obligations.WidthConversionCompletes := by
  intro s h hn
  exact ⟨⟨_, exec_conversionTo h .w8, rfl, runSteps_conversion h hn .w8⟩,
    ⟨_, exec_conversionTo h .w16, rfl, runSteps_conversion h hn .w16⟩⟩

/-- A conversion that the host presents takes two steps and answers Ok; a run that goes on well from there has ended well
(60_exceptions R241). -/
theorem runEndedWell_of_conversion {w : Width} {s : State} {rest : List OutsideMove} {k : Nat} {expected : List Resp}
    (h : ReadyHandle s) (hn : NoResetToCome s) (ho : s.outside = .present (encode (conversionTo w)) :: rest)
    (hrest : RunEndedWell k (converted w { s with outside := rest }) expected) :
    RunEndedWell (k + 2) s (.ok :: expected) := by
  have ⟨hidle, hfault⟩ := h.1
  have ready : ReadyHandle { s with outside := rest, resets := later s.resets } := h
  have decodes : decode (encode (conversionTo w)) = .ok (conversionTo w) :=
    decodeInvertsEncode _ (by cases w <;> rfl)
  have accepted : step s = .next { s with outside := rest, resp := .none, seq := .vWrite w } := by
    rw [step_present h.1 (noBlockReset_of_none hn) ho, acceptWord_of_ok decodes, exec_conversionTo ready, hn]
    rfl
  have written : step { s with outside := rest, resp := .none, seq := .vWrite w } =
      .next (converted w { s with outside := rest }) := by
    rw [step_eq_microStep_of_none (by exact hfault) (by exact hn)]
    exact convertWrite_accepted (s := { s with outside := rest }) hidle w
  obtain ⟨x, hrun, hq, hf, hresp⟩ := hrest
  refine ⟨x, runSteps_first accepted (runSteps_first written hrun), hq, hf, ?_⟩
  rw [responses_succ accepted, if_neg (by simp [endsCommand]), responses_succ written, if_pos, hresp]
  · rfl
  · simp [endsCommand, resetDue, converted, hidle, hn]

/-- Settles O21: two conversions, each from a state at rest with a live handle. -/
theorem widthConversionReversible : Obligations.WidthConversionReversible := by
  intro s h hn hw h2
  have ⟨hidle, hfault⟩ := h.1
  have ready : ReadyHandle (converted .w16 s) := h
  refine ⟨⟨_, _, _, exec_conversionTo h .w16, runSteps_conversion h hn .w16, rfl, rfl, exec_conversionTo ready .w8, _,
    runSteps_conversion ready hn .w8, rfl, hidle, hw.symm, rfl, h2.symm, rfl⟩, fun ho => ?_⟩
  refine runEndedWell_of_conversion (w := .w16) h hn ho ?_
  refine runEndedWell_of_conversion (w := .w8) (k := 0) h hn rfl ?_
  exact ⟨_, runSteps_zero _, hidle, hfault, rfl⟩

/-! ## RST -/

theorem foldl_restoreGroup1 (c d : Ctrl1) : (restoreGroup1 c).foldl applyCtrl1 d = { c with en := false } := by
  simp only [restoreGroup1, List.foldl, applyCtrl1]

/-- `S_REST1` after the reset pulse: group 1 as it was saved but for EN (41_config R144). -/
theorem rstRest1_closed {s : State} (ho : s.roleEnableOpen = false) : rstRest1 s = .next { s with
    ctrl1 := { s.save1 with en := false }, seq := .sRest2, log := s.log ++ [.regWrite (restoreGroup1 s.save1)] } := by
  rw [rstRest1, regWrite_closed ho, foldl_restoreGroup1]; rfl

/-- `S_REST2`: group 2 as it was saved (41_config R144). -/
theorem rstRest2_eq (s : State) : rstRest2 s = .next { s with
    ctrl2 := s.save2, cfg := .disabledConfigured, resp := .ok, seq := .idle,
    log := s.log ++ [.regWrite (restoreGroup2 s.save2)] } := by
  rw [rstRest2, regWrite_other rfl]; rfl

/-- Settles O22: the six micro-steps of RST, one flat update after the other. -/
theorem resetPreservesFields : Obligations.ResetPreservesFields := by
  intro s h hn
  have ⟨hidle, hf⟩ := h.1
  refine ⟨_, accept_goto h .sSave1, rfl, ?_⟩
  refine runSteps_microStep hf hn (rstSave1_eq _) ?_
  refine runSteps_microStep hf hn (rstSave2_eq _) ?_
  refine runSteps_microStep hf hn (rstRstA_eq _) ?_
  refine runSteps_microStep hf hn (rstRstD_eq _) ?_
  refine runSteps_microStep hf hn (rstRest1_closed rfl) ?_
  refine runSteps_microStep hf hn (rstRest2_eq _) ?_
  simp [hidle]

end Sys2Proof.Machine
end

section
/-! PROOFS. The two construction commands from acceptance to the end (41_config R130 to R138): the reset pulse that both begin
with, the fields of the role, and the width and enable steps that both end with. -/

namespace Sys2Proof.Machine

/-! ## Acceptance -/

/-- Settles O13: what the acceptance of CFGC latches. -/
theorem controllerConstructionAccepted : Obligations.ControllerConstructionAccepted :=
  fun w cpol cpha _ _ hr ho hrate => exec_cfgc_of_free w cpol cpha hr ho hrate

/-- Settles O16: what the acceptance of CFGP latches. -/
theorem peripheralConstructionAccepted : Obligations.PeripheralConstructionAccepted := by
  intro w cpol cpha s hr ho
  rw [exec, execCfgp, accept_lawful hr (decide_eq_true ho)]

/-! ## The steps that both commands end with -/

/-- `C_WIDTH` and `P_WIDTH` over group 2 as the reset pulse left it: SSOE, which they do not write, is 0 (41_config R133). -/
theorem widthStep_afterPulse {s : State} (h2 : s.ctrl2 = ctrl2AfterPulse) (q : Seq) : widthStep q s = { s with
    ctrl2 := group2Of s.width, cfg := .disabledConfigured, seq := q,
    log := s.log ++ [.regWrite [.dsize (ds s.width), .rxth (th s.width)]] } := by
  rw [widthStep, regWrite_other rfl, h2]; rfl

/-- `s` after the width step and the enable step (41_config R133, R134). -/
def constructed (s : State) : State :=
  { s with
    ctrl1 := { s.ctrl1 with en := true }, ctrl2 := group2Of s.width, cfg := .enabled, resp := .ok, seq := .idle
    log := s.log ++ [.regWrite [.dsize (ds s.width), .rxth (th s.width)], .regWrite [.en true]] }

/-- `C_EN` or `P_EN` after the width step. -/
theorem enableStep_widthStep {s : State} (h2 : s.ctrl2 = ctrl2AfterPulse) (ho : s.roleEnableOpen = false) (q : Seq) :
    enableStep (widthStep q s) = constructed s := by
  rw [widthStep_afterPulse h2, enableStep, finish_writeEnable_closed (by exact ho)]
  simp [constructed]

/-- The last two micro-steps of a construction, `q` being its enable micro-state. -/
theorem runSteps_constructed {s : State} {q : Seq} (hf : s.fault = .noFault) (hn : NoResetToCome s)
    (h2 : s.ctrl2 = ctrl2AfterPulse) (ho : s.roleEnableOpen = false) (hwidth : microStep s = .next (widthStep q s))
    (hen : microStep (widthStep q s) = .next (enableStep (widthStep q s))) : runSteps 2 s = .next (constructed s) := by
  refine runSteps_microStep hf hn hwidth (runSteps_one hf hn ?_)
  rw [hen, enableStep_widthStep h2 ho]

/-! ## CFGC -/

/-- Group 1 as `C_CTRL` leaves it after the reset pulse (41_config R132). -/
def controllerGroup1 (cpol cpha : Bool) (k : BitVec 3) : Ctrl1 :=
  { ctrl1AfterPulse with cpha := cpha, cpol := cpol, mstr := true, br := k, ssm := true, ssi := true }

/-- `C_CTRL` with a divisor, after the reset pulse (41_config R132). -/
theorem cfgcCtrl_afterPulse {s : State} {k : BitVec 3} (hd : divisor s.fin s.freq = some k)
    (h1 : s.ctrl1 = ctrl1AfterPulse) (ho : s.roleEnableOpen = false) : cfgcCtrl s = .next { s with
      ctrl1 := controllerGroup1 s.cpol s.cpha k, seq := .cWidth,
      log := s.log ++ [.regWrite (controllerFields s k)] } := by
  rw [cfgcCtrl, hd]
  simp only [regWrite_closed ho, h1]
  rfl

/-- The seven micro-steps of CFGC with a divisor. -/
theorem runSteps_cfgc {s : State} {k : BitVec 3} (hf : s.fault = .noFault) (hn : NoResetToCome s) (hq : s.seq = .cClk)
    (hd : divisor s.fin s.freq = some k) :
    runSteps 7 s = .next (constructed { atControllerFields s with
      ctrl1 := controllerGroup1 s.cpol s.cpha k, seq := .cWidth,
      log := (atControllerFields s).log ++ [.regWrite (controllerFields s k)] }) := by
  refine (runSteps_trans (k := 3) (runSteps_cClk_to_cCtrl hf hn hq)).trans ?_
  refine runSteps_microStep (s := atControllerFields s) hf hn (cfgcCtrl_afterPulse hd rfl rfl) ?_
  exact runSteps_constructed (q := .cEn) hf hn rfl rfl rfl rfl

/-- Settles O14: the divisor of a legal rate, and the run from the accepted state. -/
theorem controllerConstructionCompletes : Obligations.ControllerConstructionCompletes := by
  intro w cpol cpha rate s hr ho hn hrate hpos hle
  have hfreq : (BitVec.ofNat 32 rate).toNat = rate := by rw [BitVec.toNat_ofNat, Nat.mod_eq_of_lt hrate]
  obtain ⟨k, hd⟩ : ∃ k, divisor s.fIn (BitVec.ofNat 32 rate) = some k :=
    ⟨_, divisor_eq_bucket (by rwa [hfreq]) (by rwa [hfreq])⟩
  refine ⟨k, _, hd, exec_cfgc_of_free w cpol cpha hr ho hrate, Eq.trans (runSteps_cfgc hr.2 hn rfl hd) ?_⟩
  simp [constructed, atControllerFields, controllerGroup1, ctrl1AfterPulse, group2Of, controllerFields]

/-! ## CFGP -/

/-- `P_DIS` where every control field is 0 already (41_config R132). -/
theorem cfgpDis_afterPulse {s : State} (ho : s.roleEnableOpen = false) (h1 : s.ctrl1 = ctrl1AfterPulse) :
    cfgpDis s = .next { s with cfg := .disabledConfiguring, seq := .pCtrl, log := s.log ++ [.regWrite [.en false]] } := by
  rw [cfgpDis, disableStep, regWrite_closed ho, h1]
  cases s
  cases h1
  rfl

/-- The first four micro-steps of CFGP do what those of CFGC do (41_config R136). -/
theorem runSteps_pClk_to_pCtrl {s : State} (hf : s.fault = .noFault) (hn : NoResetToCome s) (hq : s.seq = .pClk) :
    runSteps 4 s = .next (goto .pCtrl (atControllerFields s)) := by
  have hclk : microStep s = cfgpClk s := by rw [microStep, hq]
  refine runSteps_microStep hf hn (hclk.trans (cfgpClk_eq s)) ?_
  refine runSteps_microStep hf hn (cfgpRstA_eq _) ?_
  refine runSteps_microStep hf hn (cfgpRstD_eq _) ?_
  refine runSteps_microStep hf hn (cfgpDis_afterPulse rfl rfl) ?_
  simp [goto, atControllerFields]

/-- Group 1 as `P_CTRL` leaves it after the reset pulse: BR and SSI, which it does not write, are 0 (41_config R137). -/
def peripheralGroup1 (cpol cpha : Bool) : Ctrl1 := { ctrl1AfterPulse with cpha := cpha, cpol := cpol }

/-- `P_CTRL` after the reset pulse (41_config R137). -/
theorem cfgpCtrl_afterPulse {s : State} (h1 : s.ctrl1 = ctrl1AfterPulse) (ho : s.roleEnableOpen = false) :
    cfgpCtrl s = .next { s with
      ctrl1 := peripheralGroup1 s.cpol s.cpha, seq := .pWidth, log := s.log ++ [.regWrite (peripheralFields s)] } := by
  rw [cfgpCtrl, regWrite_closed ho, h1]
  rfl

/-- The seven micro-steps of CFGP. -/
theorem runSteps_cfgp {s : State} (hf : s.fault = .noFault) (hn : NoResetToCome s) (hq : s.seq = .pClk) :
    runSteps 7 s = .next (constructed { atControllerFields s with
      ctrl1 := peripheralGroup1 s.cpol s.cpha, seq := .pWidth,
      log := (atControllerFields s).log ++ [.regWrite (peripheralFields s)] }) := by
  refine (runSteps_trans (k := 3) (runSteps_pClk_to_pCtrl hf hn hq)).trans ?_
  refine runSteps_microStep (s := goto .pCtrl (atControllerFields s)) hf hn (cfgpCtrl_afterPulse rfl rfl) ?_
  exact runSteps_constructed (q := .pEn) hf hn rfl rfl rfl rfl

/-- Settles O17: the run from the accepted state. -/
theorem peripheralConstructionCompletes : Obligations.PeripheralConstructionCompletes := by
  intro w cpol cpha s hr ho hn
  refine ⟨_, peripheralConstructionAccepted w cpol cpha s hr ho, Eq.trans (runSteps_cfgp hr.2 hn rfl) ?_⟩
  simp [constructed, atControllerFields, peripheralGroup1, ctrl1AfterPulse, group2Of, peripheralFields]

end Sys2Proof.Machine
end

section
/-! PROOFS. What no step of a live handle outside construction and RST changes (41_config R147): one rule for each kind of
step. -/

namespace Sys2Proof.Machine

/-- The role flag is as it was, or a ModeFault response has left it unspecified (93 U9). -/
def MasterKept (s t : State) : Prop := t.ctrl1.mstr = s.ctrl1.mstr ∨ t.roleEnableOpen = true

/-- `t` comes from `s` without a change to the role, the Mode and the fields that hold them; of group 1 only MSTR, EN and the
direction can differ (41_config R147). -/
structure ConfigurationFrame (s t : State) : Prop where
  role : t.role = s.role := by rfl
  cpol : t.cpol = s.cpol := by rfl
  cpha : t.cpha = s.cpha := by rfl
  group1 : t.ctrl1 = { s.ctrl1 with
    mstr := t.ctrl1.mstr, en := t.ctrl1.en, bidimode := t.ctrl1.bidimode, bidioe := t.ctrl1.bidioe } := by rfl
  master : MasterKept s t

/-! ## Transfers -/

theorem goto_masterKept (q : Seq) (s : State) : MasterKept s (goto q s) := .inl rfl

theorem respondError_masterKept (r : Resp) (s : State) : MasterKept s (respondError r s) := by
  rcases respondError_cases r s with ⟨-, e⟩ | ⟨-, e⟩ <;> rw [e]
  · exact .inl rfl
  · exact .inr rfl

theorem failTransfer_masterKept (w : Width) (r : Resp) (s : State) : MasterKept s (failTransfer w r s) :=
  respondError_masterKept r _

theorem drainBlocked_masterKept (s : State) : MasterKept s (drainBlocked s) := by
  unfold drainBlocked
  split
  · exact .inl rfl
  · exact failTransfer_masterKept _ _ s

theorem pollThen_masterKept {kind : PollKind} {f g : State → State} {e : Resp → State → State}
    (hf : ∀ s, MasterKept s (f s)) (hg : ∀ s, MasterKept s (g s)) (he : ∀ r s, MasterKept s (e r s)) (s : State) :
    MasterKept s (pollThen kind f g e s) := by
  rcases pollThen_cases kind f g e s with ⟨-, p⟩ | ⟨-, p⟩ | ⟨-, p⟩ | ⟨-, p⟩ <;> rw [p]
  · exact hf (snapshot s)
  · exact hg (snapshot s)
  · exact he _ (snapshot s)
  · exact he _ (snapshot s)

/-- A poll that propagates a fault writes MSTR only by a ModeFault response (60_exceptions R221; 93 U9). -/
theorem propagatingPoll_masterKept {s t : State} (hq : propagatingPoll s.seq = true) (h : microStep s = .next t) :
    MasterKept s t := by
  unfold microStep at h
  cases e : s.seq <;> simp only [e] at h hq
  case x8FillPoll | x8ReadPoll | x16SendPoll | x16RecvPoll =>
    cases h; exact pollThen_masterKept (fun s => goto_masterKept _ s) (goto_masterKept _) (failTransfer_masterKept _) s
  case x8DrainPoll =>
    cases h; exact pollThen_masterKept (goto_masterKept _) drainBlocked_masterKept (failTransfer_masterKept _) s
  case w8InitPoll | w16Poll =>
    cases h; exact pollThen_masterKept (goto_masterKept _) (goto_masterKept _) respondError_masterKept s
  all_goals cases hq

/-- The first step of a transfer writes the direction fields alone (10_state R28). -/
theorem directionSet_eq (q : Seq) (c : Ctrl1) : directionSet q c =
    { c with bidimode := (directionSet q c).bidimode, bidioe := (directionSet q c).bidioe } := by
  unfold directionSet
  split <;> rfl

theorem transfer_masterKept {s t : State} (hq : inTransfer s.seq = true) (h : microStep s = .next t) : MasterKept s t := by
  obtain kept | ⟨propagates, -⟩ := (transfer_step hq h).group1
  · rw [directionSet_eq] at kept
    exact .inl (by rw [kept])
  · exact propagatingPoll_masterKept propagates h

theorem transfer_configurationFrame {s t : State} (hq : inTransfer s.seq = true) (h : microStep s = .next t) :
    ConfigurationFrame s t := by
  have frame := transfer_handleFrame hq h
  refine ⟨frame.role, frame.cpol, frame.cpha, ?_, transfer_masterKept hq h⟩
  have kept := frame.group1
  rw [directed, directionSet_eq] at kept
  rw [kept]

/-! ## Idle and the short commands -/

theorem HandleFrame.configurationFrame {s t : State} (h : HandleFrame s t) (h1 : t.ctrl1 = s.ctrl1) :
    ConfigurationFrame s t := by
  refine ⟨h.role, h.cpol, h.cpha, ?_, .inl ?_⟩ <;> rw [h1]

/-- In Idle with a live handle nothing is written but the operands of a command that is accepted (30_encoding R96, R97). -/
theorem IdleMove.frame_of_bound {s t : State} (h : IdleMove s t) (ho : s.own = .bound) :
    HandleFrame s t ∧ t.ctrl1 = s.ctrl1 := by
  cases h with
  | stays frame group1 => exact ⟨frame, group1⟩
  | begins _ frame group1 => exact ⟨frame, group1⟩
  | constructs free => rw [ho] at free; cases free
  | hostWrites free => rw [ho] at free; cases free

/-- A write of EN changes MSTR only where both are unspecified already (93 U9; log 7). -/
theorem writeEnable_configurationFrame (b : Bool) (c : Lifecycle) (s : State) :
    ConfigurationFrame s (finish .ok { regWrite [.en b] s with cfg := c }) := by
  cases ho : s.roleEnableOpen
  · rw [finish_writeEnable_closed ho]; exact { master := .inl rfl }
  · rw [finish_writeEnable_open ho]; exact { master := .inr ho }

theorem short_configurationFrame {s t : State} (hq : inShort s.seq = true) (h : microStep s = .next t) :
    ConfigurationFrame s t := by
  unfold microStep at h
  cases e : s.seq <;> simp only [e] at h hq
  case eWrite => cases h; exact writeEnable_configurationFrame true .enabled s
  case dWrite => cases h; exact writeEnable_configurationFrame false .disabledConfigured s
  case vWrite w => cases h; rw [regWrite_other rfl]; exact { master := .inl rfl }
  case lRel => cases h; exact { master := .inl rfl }
  all_goals cases hq

/-- Of the short commands only a conversion writes the width (41_config R141). -/
theorem short_width {s t : State} (hq : inShort s.seq = true) (h : microStep s = .next t) :
    t.width = s.width ∨ s.seq = .vWrite t.width := by
  unfold microStep at h
  cases e : s.seq <;> simp only [e] at h hq
  case eWrite | dWrite | lRel => cases h; exact .inl rfl
  case vWrite w => cases h; exact .inr rfl
  all_goals cases hq

/-! ## Every step -/

theorem microStep_configurationFrame {s t : State} (ho : s.own = .bound) (hc : inConstruction s.seq = false)
    (hr : inReset s.seq = false) (h : microStep s = .next t) :
    ConfigurationFrame s t ∧ (t.width = s.width ∨ s.seq = .vWrite t.width) := by
  obtain hq | hq | hq | hq | hq := seq_kinds s.seq
  · obtain ⟨frame, group1⟩ := (idle_idleMove hq h).frame_of_bound ho
    exact ⟨frame.configurationFrame group1, .inl frame.width⟩
  · rw [hq] at hc; cases hc
  · rw [hq] at hr; cases hr
  · exact ⟨short_configurationFrame hq h, short_width hq h⟩
  · exact ⟨transfer_configurationFrame hq h, .inl (transfer_handleFrame hq h).width⟩

/-- Settles O24: the frame of the micro-step, field by field. -/
theorem handleConfigurationImmutable : Obligations.HandleConfigurationImmutable := by
  intro s t ho hc hr hb h
  obtain ⟨⟨role, cpol, cpha, group1, master⟩, width⟩ :=
    microStep_configurationFrame (s := tick s) ho hc hr (step_next_microStep hb h).2
  refine ⟨role, cpol, cpha, width, ?_, ?_, ?_, ?_, ?_, ?_, ?_, master⟩
  all_goals rw [group1]; rfl

end Sys2Proof.Machine
end

section
/-! PROOFS. The Fault Detector (42_fault_detector R160 to R166): what a poll answers under each flag, the transmit-capacity
estimate that WR8 refills its credit from, and the polls that repeat until there is readiness or a fault. -/

namespace Sys2Proof.Machine

/-! ## What a poll answers -/

theorem poll_of_ovr {s : Status} (h : s.ovr = true) (kind : PollKind) : poll kind s = .overrun := by simp [poll, h]

theorem poll_of_modf {s : Status} (ho : s.ovr = false) (hm : s.modf = true) (kind : PollKind) :
    poll kind s = .modeFault := by simp [poll, ho, hm]

/-- Without a fault flag the readiness bit decides (42_fault_detector R164). -/
theorem poll_of_noFlag {s : Status} (ho : s.ovr = false) (hm : s.modf = false) (kind : PollKind) :
    poll kind s = if readyBit kind s then .ready else .wouldBlock := by simp [poll, ho, hm]

/-- Settles O32: a fault flag answers either kind of poll; without one the readiness bit of the kind does. -/
theorem pollTruthTable : Obligations.PollTruthTable := by
  intro s
  refine ⟨fun ho => ⟨poll_of_ovr ho _, poll_of_ovr ho _⟩, fun ho hm => ⟨poll_of_modf ho hm _, poll_of_modf ho hm _⟩,
    ?_, ?_, ?_, ?_, ?_⟩
  all_goals
    intro ho hm
    rw [poll_of_noFlag ho hm]
    simp +contextual [readyBit]

/-! ## The credit of WR8 -/

/-- `W8_CAP_READ` as one flat update (44_write R203). -/
theorem wr8CapRead_eq (s : State) : wr8CapRead s = .next { s with
    cap := txcap (envLevel s.env s.draws), seq := .w8Cap, stat := { s.stat with txlvl := envLevel s.env s.draws },
    env := envAfterLevel s.env, draws := s.draws + envLevelDraws s.env,
    log := s.log ++ [.levelRead (envLevel s.env s.draws)] } := rfl

/-- `W8_CAP` as one flat update (44_write R203). -/
theorem wr8Cap_eq (s : State) : wr8Cap s = .next { s with seq := if s.cap = 0#3 then .w8CapRead else .w8Send } := rfl

/-- Settles O33: the four codes are computed; each step is the flat update of the ticked state. -/
theorem transmitCapacity : Obligations.TransmitCapacity := by
  refine ⟨⟨rfl, rfl, rfl, rfl⟩, fun s hf hb => ⟨fun hq => ?_, fun hq => ?_⟩⟩
  · rw [step_w8CapRead hf hb hq, wr8CapRead_eq]; rfl
  · rw [step_w8Cap hf hb hq, wr8Cap_eq]; rfl

/-! ## Polls that block -/

theorem pollThen_of_wouldBlock {kind : PollKind} {s : State} (h : poll kind (envStatus s.env s.draws) = .wouldBlock)
    (f g : State → State) (e : Resp → State → State) : pollThen kind f g e s = g (snapshot s) := by
  simp only [pollThen, snapshot_stat, h]

/-- A micro-state that blocks on a readiness bit is one poll for that bit, and stays itself on Would-Block (42_fault_detector
R166). -/
theorem microStep_of_blocksOn {s : State} {kind : PollKind} (h : blocksOn s.seq = some kind) :
    ∃ onReady onFault, microStep s = .next (pollThen kind onReady (goto s.seq) onFault s) := by
  unfold microStep
  cases e : s.seq <;> simp only [e] at h ⊢
  case x16SendPoll | x16RecvPoll | w8InitPoll | w16Poll | w8FinalPoll | w16FinalPoll => cases h; exact ⟨_, _, rfl⟩
  all_goals cases h

/-- Settles O35: on Would-Block the poll leaves the state after its snapshot, in the same micro-state. -/
theorem blockingPollRepeats : Obligations.BlockingPollRepeats := by
  intro s kind hf hb hk hp
  obtain ⟨onReady, onFault, hstep⟩ := microStep_of_blocksOn (s := tick s) hk
  rw [step_eq_microStep hf hb, hstep, pollThen_of_wouldBlock (s := tick s) hp]
  rfl

end Sys2Proof.Machine
end

section
/-! PROOFS. The steps of the transfers one by one (43_transfer R170 to R175, R180, R183; 44_write R203, R208): acceptance, the step
that sends an element, the step that stores one, and what each poll answers. -/

namespace Sys2Proof.Machine

/-! ## Acceptance -/

/-- A transfer of the handle's width whose length fits is lawful (30_encoding R97). -/
theorem transfer_lawful_of_ready {n : Nat} {w : Width} {s : State} (h : ReadyHandle s) (hn : n < 2 ^ 32) (hw : s.width = w) :
    (fitsArg n && boundReady s && decide (s.width = w)) = true := by
  simp [(fitsArg_iff n).2 hn, h.2, hw]

/-- Settles O40: what the acceptance of each transfer latches. -/
theorem transfersAccepted : Obligations.TransfersAccepted := by
  intro n s h hn
  refine ⟨fun hw => ?_, fun hw => ?_, fun hw => ?_, fun hw => ?_⟩
  · rw [exec, execXfer8, accept_lawful h.1 (transfer_lawful_of_ready h hn hw)]
  · rw [exec, execXfer16, accept_lawful h.1 (transfer_lawful_of_ready h hn hw)]
  · rw [exec, execWr8, accept_lawful h.1 (transfer_lawful_of_ready h hn hw)]
  · rw [exec, execWr16, accept_lawful h.1 (transfer_lawful_of_ready h hn hw)]

/-! ## Sending and storing an element -/

/-- `s` after the sending of the element at the write cursor, with the next micro-state `q` (43_transfer R172). -/
def elemSent (w : Width) (q : Seq) (s : State) : State :=
  { s with
    wpos := s.wpos + 1#32, seq := q, env := envAfterWrite s.ctrl1.bidimode (readElem w s.mem s.wpos.toNat) s.env,
    log := s.log ++ [.memRead w s.wpos.toNat (readElem w s.mem s.wpos.toNat),
      .dataWrite w (readElem w s.mem s.wpos.toNat)] }

theorem sendElem_of_toNat_lt {w : Width} {s : State} (h : s.wpos.toNat < s.n.toNat) (q : Seq) :
    sendElem w q s = .next (elemSent w q s) := by
  rw [sendElem_of_lt (BitVec.lt_def.2 h)]
  simp [elemSent, dataWrite, memRead, note]

/-- What `sendElem` does when it answers a next state. -/
theorem sendElem_next_elemSent {w : Width} {q : Seq} {s t : State} (h : sendElem w q s = .next t) :
    s.wpos.toNat < s.n.toNat ∧ t = elemSent w q s := by
  have hlt := BitVec.lt_def.1 (sendElem_next h).1
  rw [sendElem_of_toNat_lt hlt] at h
  cases h
  exact ⟨hlt, rfl⟩

/-- `s` after the storing of a received element at the read cursor, with the next micro-state `q` (43_transfer R173). -/
def elemStored (w : Width) (q : Seq) (s : State) : State :=
  { s with
    rpos := s.rpos + 1#32, seq := q, mem := writeElem w s.mem s.rpos.toNat (dataValue w s), env := envAfterData s.env,
    draws := s.draws + envDataDraws s.env,
    log := s.log ++ [.dataRead w (dataValue w s), .memWrite w s.rpos.toNat (dataValue w s)] }

theorem storeElem_of_toNat_lt {w : Width} {s : State} (h : s.rpos.toNat < s.n.toNat) (q : Seq) :
    storeElem w q s = .next (elemStored w q s) := by
  rw [storeElem_of_lt (BitVec.lt_def.2 h)]
  simp [elemStored, dataRead, memWrite]

/-- What `storeElem` does when it answers a next state. -/
theorem storeElem_next_elemStored {w : Width} {q : Seq} {s t : State} (h : storeElem w q s = .next t) :
    s.rpos.toNat < s.n.toNat ∧ t = elemStored w q s := by
  have hlt := BitVec.lt_def.1 (storeElem_next h).1
  rw [storeElem_of_toNat_lt hlt] at h
  cases h
  exact ⟨hlt, rfl⟩

theorem wr8Send_of_credit {s : State} (h : s.cap ≠ 0#3) :
    wr8Send s = sendElem .w8 .w8Test { s with cap := s.cap - 1#3 } := if_neg h

/-- Settles O48: each send step is `elemSent` of the ticked state, in WR8 with one credit less. -/
theorem sendStep : Obligations.SendStep := by
  intro s hf hb h
  refine ⟨fun hq => ?_, fun hq => ?_, fun hq hc => ?_, fun hq => ?_⟩
  · rw [step_x8FillSend hf hb hq, xfer8FillSend, sendElem_of_toNat_lt (s := tick s) h]; rfl
  · rw [step_x16Send hf hb hq, xfer16Send, sendElem_of_toNat_lt (s := tick s) h]; rfl
  · rw [step_w8Send hf hb hq, wr8Send_of_credit (s := tick s) hc]
    exact sendElem_of_toNat_lt (by exact h) _
  · rw [step_w16Send hf hb hq, wr16Send, sendElem_of_toNat_lt (s := tick s) h]; rfl

/-- The element that `elemStored` writes is the value the data read returned. -/
theorem readElem_elemStored (w : Width) (q : Seq) (s : State) :
    readElem w (elemStored w q s).mem s.rpos.toNat = dataValue w s := by
  rw [elemStored, readElem_writeElem_same, dataValue, packData, narrow_narrow]

/-- The next micro-state of each step that stores an element (43_transfer R173, R174, R180). -/
def afterStore : Seq → Seq
  | .x8ReadStore => .x8ReadPoll
  | .x8DrainStore => .x8Drain
  | .x16Store => .x16Test
  | q => q

/-- Each store step is `elemStored`; in the drain loop the count of tries starts again (43_transfer R174). -/
theorem microStep_of_storesElem {w : Width} {s : State} (hq : storesElem s.seq = some w) (h : s.rpos.toNat < s.n.toNat) :
    microStep s = .next
      { elemStored w (afterStore s.seq) s with tries := if s.seq = .x8DrainStore then 0 else s.tries } := by
  unfold microStep
  cases e : s.seq <;> simp only [e] at hq ⊢
  case x8ReadStore | x16Store => cases hq; exact storeElem_of_toNat_lt h _
  case x8DrainStore => cases hq; exact storeElem_of_toNat_lt (s := { s with tries := 0 }) h _
  all_goals cases hq

/-- Settles O49: `elemStored` of the ticked state, with the next micro-state and the tries of each of the three steps. -/
theorem storeStep : Obligations.StoreStep := by
  intro w s hf hb h hq
  have hw : storesElem s.seq = some w := by
    obtain ⟨e, rfl⟩ | ⟨e, rfl⟩ | ⟨e, rfl⟩ := hq <;> rw [e] <;> rfl
  refine ⟨_, (step_eq_microStep hf hb).trans (microStep_of_storesElem (s := tick s) hw h), ?_⟩
  have hsucc : (s.rpos + 1#32).toNat = s.rpos.toNat + 1 := cursor_succ (BitVec.lt_def.2 h)
  refine ⟨hsucc, rfl, rfl, rfl, readElem_elemStored w (afterStore s.seq) (tick s),
    fun a ha => readByte_writeElem_outside w s.mem s.rpos.toNat _ ha, ?_⟩
  simp +contextual [elemStored, afterStore]

/-! ## Polls that end the command -/

/-- A fault branch that answers the error, with whatever it does to the buffer (60_exceptions R229, R231). -/
def AnswersError (onFault : Resp → State → State) : Prop :=
  ∀ r s, ∃ m, onFault r s = respondError r { s with mem := m }

theorem failTransfer_answersError (w : Width) : AnswersError (failTransfer w) := fun _ _ => ⟨_, rfl⟩

theorem respondError_answersError : AnswersError respondError := fun _ s => ⟨s.mem, rfl⟩

/-- A micro-state whose poll propagates a fault is one poll, whose fault branch answers the error (60_exceptions R221, R232). -/
theorem microStep_of_propagatingPoll {s : State} (h : propagatingPoll s.seq = true) :
    ∃ kind onReady onBlock onFault,
      microStep s = .next (pollThen kind onReady onBlock onFault s) ∧ AnswersError onFault := by
  unfold microStep
  cases e : s.seq <;> simp only [e] at h ⊢
  case x8FillPoll | x8ReadPoll | x8DrainPoll | x16SendPoll | x16RecvPoll =>
    exact ⟨_, _, _, _, rfl, failTransfer_answersError _⟩
  case w8InitPoll | w16Poll => exact ⟨_, _, _, _, rfl, respondError_answersError⟩
  all_goals cases h

theorem pollThen_of_ovr {s : State} (h : (envStatus s.env s.draws).ovr = true) (kind : PollKind) (f g : State → State)
    (e : Resp → State → State) : pollThen kind f g e s = e .overrun (snapshot s) := by
  simp only [pollThen, snapshot_stat, poll_of_ovr h]

theorem pollThen_of_modf {s : State} (ho : (envStatus s.env s.draws).ovr = false)
    (hm : (envStatus s.env s.draws).modf = true) (kind : PollKind) (f g : State → State) (e : Resp → State → State) :
    pollThen kind f g e s = e .modeFault (snapshot s) := by
  simp only [pollThen, snapshot_stat, poll_of_modf ho hm]

/-- Settles O34: the poll takes its fault branch, an error response to the state after the snapshot. -/
theorem pollFaultEndsCommand : Obligations.PollFaultEndsCommand := by
  intro s hf hb hq
  obtain ⟨kind, f, g, e, hstep, he⟩ := microStep_of_propagatingPoll (s := tick s) hq
  rw [step_eq_microStep hf hb, hstep]
  refine ⟨fun ho => ?_, fun ho hm => ?_⟩
  · obtain ⟨m, answer⟩ := he .overrun (snapshot (tick s))
    rw [pollThen_of_ovr (s := tick s) ho, answer]
    refine ⟨_, rfl, ?_⟩
    simp [respondError]
  · obtain ⟨m, answer⟩ := he .modeFault (snapshot (tick s))
    rw [pollThen_of_modf (s := tick s) ho hm, answer]
    refine ⟨_, Config.freeBit (s.draws + envStatusDraws s.env), Config.freeBit (s.draws + envStatusDraws s.env + 1), rfl,
      ?_⟩
    simp [respondError]

/-! ## Polls without a fault -/

theorem pollThen_of_ready {kind : PollKind} {s : State} (h : poll kind (envStatus s.env s.draws) = .ready)
    (f g : State → State) (e : Resp → State → State) : pollThen kind f g e s = f (snapshot s) := by
  simp only [pollThen, snapshot_stat, h]

/-- Without a fault flag the readiness bit chooses the branch (42_fault_detector R164). -/
theorem pollThen_of_noFlag {s : State} (ho : (envStatus s.env s.draws).ovr = false)
    (hm : (envStatus s.env s.draws).modf = false) (kind : PollKind) (f g : State → State) (e : Resp → State → State) :
    pollThen kind f g e s =
      if readyBit kind (envStatus s.env s.draws) then f (snapshot s) else g (snapshot s) := by
  have hp := poll_of_noFlag ho hm kind
  split at hp
  next hr => rw [if_pos hr, pollThen_of_ready hp]
  next hr => rw [if_neg hr, pollThen_of_wouldBlock hp]

/-- Settles O37: the readiness bit chooses the branch, in the read phase with the cursors compared after it. -/
theorem readPhasePollsFirst : Obligations.ReadPhasePollsFirst := by
  intro s hf hb ho hm
  refine ⟨fun hq => ?_, fun hq => ?_⟩
  · rw [step_x8ReadPoll hf hb hq, xfer8ReadPoll, pollThen_of_noFlag (s := tick s) ho hm]
    simp only [tick_env, tick_draws, readyBit, ite_and, BitVec.lt_def]
    split <;> rfl
  · rw [step_x8FillPoll hf hb hq, xfer8FillPoll, pollThen_of_noFlag (s := tick s) ho hm]
    simp only [tick_env, tick_draws, readyBit, Bool.and_eq_true, Bool.not_eq_true']
    split <;> rfl

/-- Settles O39: the step branches on OVR alone. -/
theorem finalCheckLooksAtOverrunOnly : Obligations.FinalCheckLooksAtOverrunOnly := by
  intro s hf hb hq
  rw [step_x8Final hf hb hq, xfer8Final, snapshot_stat]
  refine ⟨fun ho => ?_, fun ho => ?_⟩
  · rw [if_pos (show (envStatus (tick s).env (tick s).draws).ovr = true from ho)]
    exact ⟨_, rfl, rfl, rfl, rfl, rfl, rfl, rfl⟩
  · rw [if_neg (show ¬(envStatus (tick s).env (tick s).draws).ovr = true from ne_true_of_eq_false ho)]
    rfl

/-! ## The drain loop -/

theorem drainBlocked_of_left {s : State} (h : retriesLeft s.tries s.drainRetries = true) :
    drainBlocked s = { s with tries := s.tries + 1, seq := .x8DrainPoll } := if_pos h

theorem drainBlocked_of_none_left {s : State} (h : retriesLeft s.tries s.drainRetries = false) :
    drainBlocked s = failTransfer .w8 .incomplete s := if_neg (ne_true_of_eq_false h)

/-- Settles O38: Would-Block is one more try or `Incomplete`, by the bound; Ready goes on to the store. -/
theorem drainLoopIsBounded : Obligations.DrainLoopIsBounded := by
  intro s hf hb hq
  rw [step_x8DrainPoll hf hb hq, xfer8DrainPoll]
  refine ⟨fun hp => ?_, fun hp => ?_⟩
  · rw [pollThen_of_wouldBlock (s := tick s) hp]
    refine ⟨fun k hk => ?_, fun k hk hle => ?_⟩
    · have left : retriesLeft s.tries s.drainRetries = true := by
        obtain ⟨hk, hlt⟩ | hk := hk <;> simp [retriesLeft, *]
      rw [drainBlocked_of_left (s := snapshot (tick s)) left, ← hq]
      rfl
    · have none_left : retriesLeft s.tries s.drainRetries = false := by simp [hk, retriesLeft, hle]
      rw [drainBlocked_of_none_left (s := snapshot (tick s)) none_left]
      refine ⟨_, rfl, ?_⟩
      simp [failTransfer, respondError]
  · rw [pollThen_of_ready (s := tick s) hp]
    rfl

end Sys2Proof.Machine
end

section
/-! PROOFS. What a full-duplex transfer has done when it answers Ok, whatever the environment does (43_transfer R176, R182): the
course of one command, packaged once, and what has been sent, received and stored at each micro-state of XFER8 and XFER16. -/

namespace Sys2Proof.Machine

/-! ## The course of one command -/

/-- The course of one command, with no move of the host to come: each micro-step from a state that is `running` leads to one that
is, or ends the command in Idle, where `ended` holds; a block reset ends it as well. Neither speaks of the block resets to come. -/
structure Course (running ended : State → Prop) : Prop where
  busy : ∀ u, running u → u.seq ≠ .idle
  microStep : ∀ u t, running u → microStep u = .next t → running t ∨ ended t
  idle : ∀ u, ended u → u.seq = .idle
  reset : ∀ u, running u ∨ ended u → ended (takeReset u)
  running_tick : ∀ u, running u → running (tick u)
  ended_tick : ∀ u, ended u → ended (tick u)

/-- In Idle with no move of the host to come the machine waits (log 8). -/
theorem microStep_of_waiting {u : State} (hq : u.seq = .idle) (ho : u.outside = []) : microStep u = .next u := by
  rw [microStep, hq]
  simp only [idleStep, ho]

/-- In every run from the start of a command the command is running or has ended. -/
theorem Course.of_run {running ended : State → Prop} (c : Course running ended) {k : Nat} {s t : State} (hs : running s)
    (ho : s.outside = []) (h : runSteps k s = .next t) : running t ∨ ended t := by
  refine (runSteps_keeps (P := fun u => (running u ∨ ended u) ∧ u.outside = []) ?_ ⟨.inl hs, ho⟩ h).1
  rintro u v ⟨hu, ho⟩ hstep
  obtain ⟨-, rfl⟩ | ⟨-, -, hm⟩ := step_next hstep
  · exact ⟨.inr (c.reset u hu), ho⟩
  · obtain hu | hu := hu
    · have hu := c.running_tick u hu
      exact ⟨c.microStep _ v hu hm, (microStep_hostFrame (c.busy _ hu) hm).outside.trans ho⟩
    · rw [microStep_of_waiting (u := tick u) (c.idle u hu) ho] at hm
      cases hm
      exact ⟨.inr (c.ended_tick u hu), ho⟩

/-! ## What has been exchanged -/

/-- What a full-duplex transfer begun in `s` has done when it stands in `u`: the elements below the write cursor are sent, those
below the read cursor are received and stored, and the others hold what they held at the start. -/
structure Exchanged (w : Width) (s u : State) : Prop where
  n : u.n = s.n
  sent : sentValues u.log = sentValues s.log ++ bufferElems w s.mem u.wpos.toNat
  received : receivedValues u.log = receivedValues s.log ++ bufferElems w u.mem u.rpos.toNat
  rest : ∀ i, u.rpos.toNat ≤ i → readElem w u.mem i = readElem w s.mem i

namespace Exchanged

variable {w : Width} {s u : State}

theorem start (hw : s.wpos = 0#32) (hr : s.rpos = 0#32) : Exchanged w s s :=
  ⟨rfl, by simp [hw, bufferElems], by simp [hr, bufferElems], fun _ _ => rfl⟩

/-- A step that touches neither the length, the cursors, the buffer nor the log. -/
theorem of_same {t : State} (h : Exchanged w s u) (n : t.n = u.n := by rfl) (wpos : t.wpos = u.wpos := by rfl)
    (rpos : t.rpos = u.rpos := by rfl) (mem : t.mem = u.mem := by rfl) (log : t.log = u.log := by rfl) :
    Exchanged w s t :=
  ⟨n.trans h.n, by rw [log, wpos, h.sent], by rw [log, mem, rpos, h.received], by rw [rpos, mem]; exact h.rest⟩

protected theorem goto (h : Exchanged w s u) (q : Seq) : Exchanged w s (goto q u) := h.of_same

protected theorem snapshot (h : Exchanged w s u) : Exchanged w s (snapshot u) :=
  ⟨h.n, by simp [sentValues, h.sent], by simp [receivedValues, h.received], h.rest⟩

protected theorem regWrite (h : Exchanged w s u) (fs : List FieldVal) : Exchanged w s (regWrite fs u) :=
  ⟨h.n, by simp [sentValues, h.sent], by simp [receivedValues, h.received], h.rest⟩

/-- Sending the element at the write cursor, which no store has reached yet. -/
protected theorem sendElem (h : Exchanged w s u) (hle : u.rpos.toNat ≤ u.wpos.toNat) (hlt : u.wpos.toNat < u.n.toNat)
    (q : Seq) : Exchanged w s (elemSent w q u) := by
  have hsucc : (u.wpos + 1#32).toNat = u.wpos.toNat + 1 := cursor_succ (BitVec.lt_def.2 hlt)
  refine ⟨h.n, ?_, ?_, h.rest⟩
  · simp [elemSent, hsucc, bufferElems_succ, sentValues, h.sent, h.rest _ hle]
  · simp [elemSent, receivedValues, h.received]

/-- Storing the received value at the read cursor. -/
protected theorem storeElem (h : Exchanged w s u) (hlt : u.rpos.toNat < u.n.toNat) (q : Seq) :
    Exchanged w s (elemStored w q u) := by
  have hsucc : (u.rpos + 1#32).toNat = u.rpos.toNat + 1 := cursor_succ (BitVec.lt_def.2 hlt)
  refine ⟨h.n, ?_, ?_, fun i hi => ?_⟩
  · simp [elemStored, sentValues, h.sent]
  · have last : readElem w (writeElem w u.mem u.rpos.toNat (dataValue w u)) u.rpos.toNat = dataValue w u :=
      readElem_elemStored w q u
    simp [elemStored, hsucc, bufferElems_succ, receivedValues, h.received, last, bufferElems_writeElem]
  · have hi : u.rpos.toNat + 1 ≤ i := hsucc ▸ hi
    exact (readElem_writeElem_ne w u.mem _ (by omega)).trans (h.rest i (by omega))

end Exchanged

/-! ## Each micro-step of an exchange -/

/-- The micro-states of the full-duplex transfer of each width. -/
def exchanges : Width → Seq → Bool
  | .w8 => inXfer8
  | .w16 => inXfer16

/-- The full-duplex transfer begun in `s` runs in `u`. -/
structure Exchanging (w : Width) (s u : State) : Prop where
  seq : exchanges w u.seq = true
  cursors : CursorsOk u
  done : Exchanged w s u

/-- The full-duplex transfer begun in `s` has ended in `u`; with Ok, after all its elements, and in XFER8 after a snapshot without
overrun (43_transfer R175). -/
structure ExchangeEnded (w : Width) (s u : State) : Prop where
  seq : u.seq = .idle
  ok : u.resp = .ok → u.wpos = s.n ∧ u.rpos = s.n ∧ Exchanged w s u ∧ (w = .w8 → u.stat.ovr = false)

/-- What one micro-step of an exchange leads to. -/
def ExchangeStep (w : Width) (s t : State) : Prop := Exchanging w s t ∨ ExchangeEnded w s t

namespace ExchangeStep

variable {w : Width} {s u : State}

protected theorem respondError {r : Resp} (hr : r ≠ .ok) : ExchangeStep w s (respondError r u) := by
  refine .inr ⟨respondError_seq r u, fun h => absurd h ?_⟩
  rcases respondError_cases r u with ⟨-, e⟩ | ⟨-, e⟩ <;> rw [e]
  · exact hr
  · exact nofun

/-- A poll goes as its two branches without a fault go. -/
protected theorem pollThen {kind : PollKind} {f g : State → State} (hf : ExchangeStep w s (f (snapshot u)))
    (hg : ExchangeStep w s (g (snapshot u))) : ExchangeStep w s (pollThen kind f g (failTransfer w) u) := by
  rcases pollThen_cases kind f g (failTransfer w) u with ⟨-, p⟩ | ⟨-, p⟩ | ⟨-, p⟩ | ⟨-, p⟩ <;> rw [p]
  · exact hf
  · exact hg
  · exact .respondError nofun
  · exact .respondError nofun

end ExchangeStep

/-- Each micro-step of XFER8 (43_transfer R171 to R175). The cursors alone are assumed, where `xfer8_runsOn` asks for the tries and
the width too: the guarantee is of every start state. -/
theorem xfer8_exchangeStep {s u t : State} (h : Exchanging .w8 s u) (hm : microStep u = .next t) :
    ExchangeStep .w8 s t := by
  obtain ⟨hq, hc, he⟩ := h
  unfold microStep at hm
  cases e : u.seq <;> simp only [e, CursorsOk, exchanges, inXfer8] at hm hq hc
  case x8Setup =>
    cases hm
    exact .inl ⟨rfl, hc, (he.regWrite _).goto _⟩
  case x8Main =>
    cases hm
    split
    next => exact .inl ⟨rfl, hc, he.goto _⟩
    next hlt =>
      rw [BitVec.lt_def] at hlt
      have row : u.rpos.toNat ≤ u.wpos.toNat ∧ u.wpos.toNat = u.n.toNat := by omega
      exact .inl ⟨rfl, row, he.goto _⟩
  case x8Fill =>
    cases hm
    split
    next hlt => exact .inl ⟨rfl, ⟨hc.1, BitVec.lt_def.1 hlt⟩, he.goto _⟩
    next => exact .inl ⟨rfl, hc, he.goto _⟩
  case x8FillPoll =>
    cases hm
    exact .pollThen (.inl ⟨rfl, hc, he.snapshot.goto _⟩) (.inl ⟨rfl, ⟨hc.1, hc.2.le⟩, he.snapshot.goto _⟩)
  case x8FillSend =>
    obtain ⟨hlt, rfl⟩ := sendElem_next_elemSent hm
    have hs : (u.wpos + 1#32).toNat = u.wpos.toNat + 1 := cursor_succ (BitVec.lt_def.2 hlt)
    have row : u.rpos.toNat ≤ (u.wpos + 1#32).toNat ∧ (u.wpos + 1#32).toNat ≤ u.n.toNat := by omega
    exact .inl ⟨rfl, row, he.sendElem hc.1 hlt _⟩
  case x8ReadPoll =>
    cases hm
    refine .pollThen ?_ (.inl ⟨rfl, hc, he.snapshot.goto _⟩)
    split
    next hlt => exact .inl ⟨rfl, ⟨BitVec.lt_def.1 hlt, hc.2⟩, he.snapshot.goto _⟩
    next => exact .inl ⟨rfl, hc, he.snapshot.goto _⟩
  case x8ReadStore =>
    obtain ⟨hlt, rfl⟩ := storeElem_next_elemStored hm
    have hs : (u.rpos + 1#32).toNat = u.rpos.toNat + 1 := cursor_succ (BitVec.lt_def.2 hlt)
    have row : (u.rpos + 1#32).toNat ≤ u.wpos.toNat ∧ u.wpos.toNat ≤ u.n.toNat := by omega
    exact .inl ⟨rfl, row, he.storeElem hlt _⟩
  case x8Drain =>
    cases hm
    split
    next hlt =>
      rw [BitVec.lt_def] at hlt
      have row : u.rpos.toNat < u.wpos.toNat ∧ u.wpos.toNat = u.n.toNat := by omega
      exact .inl ⟨rfl, row, he.goto _⟩
    next hlt =>
      rw [BitVec.lt_def] at hlt
      have row : u.rpos.toNat = u.wpos.toNat ∧ u.wpos.toNat = u.n.toNat := by omega
      exact .inl ⟨rfl, row, he.goto _⟩
  case x8DrainPoll =>
    cases hm
    refine .pollThen (.inl ⟨rfl, hc, he.snapshot.goto _⟩) ?_
    unfold drainBlocked
    split
    next => exact .inl ⟨rfl, hc, he.snapshot.of_same⟩
    next => exact .respondError nofun
  case x8DrainStore =>
    obtain ⟨hlt, rfl⟩ := storeElem_next_elemStored (s := { u with tries := 0 }) hm
    have hlt : u.rpos.toNat < u.n.toNat := hlt
    have hs : (u.rpos + 1#32).toNat = u.rpos.toNat + 1 := cursor_succ (BitVec.lt_def.2 hlt)
    have row : (u.rpos + 1#32).toNat ≤ u.wpos.toNat ∧ u.wpos.toNat = u.n.toNat := by omega
    exact .inl ⟨rfl, row, (he.of_same (t := { u with tries := 0 })).storeElem hlt _⟩
  case x8Final =>
    cases hm
    split
    next => exact .respondError nofun
    next ho =>
      have hw : u.wpos = s.n := (BitVec.eq_of_toNat_eq hc.2).trans he.n
      have hr : u.rpos = s.n := (BitVec.eq_of_toNat_eq hc.1).trans hw
      exact .inr ⟨rfl, fun _ => ⟨hw, hr, he.snapshot.of_same, fun _ => eq_false_of_ne_true ho⟩⟩
  all_goals cases hq

/-- Each micro-step of XFER16 (43_transfer R180). -/
theorem xfer16_exchangeStep {s u t : State} (h : Exchanging .w16 s u) (hm : microStep u = .next t) :
    ExchangeStep .w16 s t := by
  obtain ⟨hq, hc, he⟩ := h
  unfold microStep at hm
  cases e : u.seq <;> simp only [e, CursorsOk, exchanges, inXfer16] at hm hq hc
  case x16Setup =>
    cases hm
    exact .inl ⟨rfl, hc, (he.regWrite _).goto _⟩
  case x16Test =>
    cases hm
    split
    next hlt => exact .inl ⟨rfl, ⟨hc.1, BitVec.lt_def.1 hlt⟩, he.goto _⟩
    next hlt =>
      rw [BitVec.lt_def] at hlt
      have hw : u.wpos = s.n := (BitVec.eq_of_toNat_eq (by omega)).trans he.n
      have hr : u.rpos = s.n := (BitVec.eq_of_toNat_eq hc.1).trans hw
      exact .inr ⟨rfl, fun _ => ⟨hw, hr, he.of_same, nofun⟩⟩
  case x16SendPoll | x16RecvPoll =>
    cases hm
    exact .pollThen (.inl ⟨rfl, hc, he.snapshot.goto _⟩) (.inl ⟨rfl, hc, he.snapshot.goto _⟩)
  case x16Send =>
    obtain ⟨hlt, rfl⟩ := sendElem_next_elemSent hm
    have hs : (u.wpos + 1#32).toNat = u.wpos.toNat + 1 := cursor_succ (BitVec.lt_def.2 hlt)
    have row : u.rpos.toNat + 1 = (u.wpos + 1#32).toNat ∧ (u.wpos + 1#32).toNat ≤ u.n.toNat := by omega
    exact .inl ⟨rfl, row, he.sendElem hc.1.le hlt _⟩
  case x16Store =>
    obtain ⟨hlt, rfl⟩ := storeElem_next_elemStored hm
    have hs : (u.rpos + 1#32).toNat = u.rpos.toNat + 1 := cursor_succ (BitVec.lt_def.2 hlt)
    have row : (u.rpos + 1#32).toNat = u.wpos.toNat ∧ u.wpos.toNat ≤ u.n.toNat := by omega
    exact .inl ⟨rfl, row, he.storeElem hlt _⟩
  all_goals cases hq

theorem exchangeStep_of_microStep {w : Width} {s u t : State} (h : Exchanging w s u) (hm : microStep u = .next t) :
    ExchangeStep w s t := by
  cases w with
  | w8 => exact xfer8_exchangeStep h hm
  | w16 => exact xfer16_exchangeStep h hm

/-! ## The guarantee -/

theorem exchanges_ne_idle {w : Width} {q : Seq} (h : exchanges w q = true) : q ≠ .idle := by
  rintro rfl
  cases w <;> cases h

/-- The course of a full-duplex transfer; a block reset leaves the response None (70_reset_and_hazards R260). -/
theorem exchange_course (w : Width) (s : State) : Course (Exchanging w s) (ExchangeEnded w s) where
  busy _ h := exchanges_ne_idle h.seq
  microStep _ _ h hm := exchangeStep_of_microStep h hm
  idle _ h := h.seq
  reset _ _ := ⟨rfl, nofun⟩
  running_tick _ h := ⟨h.seq, h.cursors, h.done.of_same⟩
  ended_tick _ h := ⟨h.seq, fun hr =>
    have ⟨hw, hp, he, ho⟩ := h.ok hr
    ⟨hw, hp, he.of_same, ho⟩⟩

/-- A full-duplex transfer that has answered Ok has sent and received its whole buffer. -/
theorem exchange_ok {w : Width} {s t : State} {k : Nat} (hq : exchanges w s.seq = true) (hc : CursorsOk s)
    (hw : s.wpos = 0#32) (hr : s.rpos = 0#32) (ho : s.outside = []) (h : runSteps k s = .next t) (hidle : t.seq = .idle)
    (hok : t.resp = .ok) : t.wpos = s.n ∧ t.rpos = s.n ∧ (w = .w8 → t.stat.ovr = false) ∧
      sentValues t.log = sentValues s.log ++ bufferElems w s.mem s.n.toNat ∧
      receivedValues t.log = receivedValues s.log ++ bufferElems w t.mem s.n.toNat := by
  obtain running | ended := (exchange_course w s).of_run ⟨hq, hc, .start hw hr⟩ ho h
  · exact absurd hidle (exchanges_ne_idle running.seq)
  · obtain ⟨wpos, rpos, ⟨-, sent, received, -⟩, ovr⟩ := ended.ok hok
    rw [wpos] at sent
    rw [rpos] at received
    exact ⟨wpos, rpos, ovr, sent, received⟩

/-- Settles O44: the end of the course of XFER8. -/
theorem byteExchangeGuarantee : Obligations.ByteExchangeGuarantee := by
  intro s t k hq _ _ hw hr ho h hidle hok
  have hc : CursorsOk s := by simp [CursorsOk, hq, hw, hr]
  obtain ⟨wpos, rpos, ovr, log⟩ := exchange_ok (w := .w8) (by rw [hq]; rfl) hc hw hr ho h hidle hok
  exact ⟨wpos, rpos, ovr rfl, log⟩

/-- Settles O45: the end of the course of XFER16. -/
theorem halfwordExchangeGuarantee : Obligations.HalfwordExchangeGuarantee := by
  intro s t k hq _ _ hw hr ho h hidle hok
  have hc : CursorsOk s := by simp [CursorsOk, hq, hw, hr]
  obtain ⟨wpos, rpos, -, log⟩ := exchange_ok (w := .w16) (by rw [hq]; rfl) hc hw hr ho h hidle hok
  exact ⟨wpos, rpos, log⟩

end Sys2Proof.Machine
end

section
/-! PROOFS. The discipline of a transfer's log in every run, finished or not (43_transfer R176, R182; 44_write R203, R205): a rule of
the log is read piece by piece, and each micro-step adds a piece that keeps to it. -/

namespace Sys2Proof.Machine

/-! ## Rules of the log -/

/-- A rule of the access log: what it asks of the entries, oldest first, and what they leave to the entries after them. -/
structure LogRule (α : Type) where
  check : α → List Access → Bool
  after : α → List Access → α
  check_nil : ∀ a, check a [] = true
  after_nil : ∀ a, after a [] = a
  check_append : ∀ a x y, check a (x ++ y) = (check a x && check (after a x) y)
  after_append : ∀ a x y, after a (x ++ y) = after (after a x) y

/-- Each data read follows a poll that returned Ready for receiving (43_transfer R176). -/
def pollRule : LogRule Bool where
  check := readsFollowPolls
  after := armedAfter
  check_nil _ := rfl
  after_nil _ := rfl
  check_append := readsFollowPolls_append
  after_append := armedAfter_append

/-- Data writes and data reads alternate (43_transfer R182). -/
def alternationRule : LogRule Bool where
  check := alternates
  after := outstandingAfter
  check_nil _ := rfl
  after_nil _ := rfl
  check_append := alternates_append
  after_append := outstandingAfter_append

/-- No more data writes than the level last read allows (44_write R203). -/
def creditRule (refill : BitVec 2 → Nat) : LogRule Nat where
  check := writesWithin refill
  after := leftAfter refill
  check_nil _ := rfl
  after_nil _ := rfl
  check_append := writesWithin_append refill
  after_append := leftAfter_append refill

namespace LogRule

variable {α : Type} (R : LogRule α) (rel : α → State → Prop)

/-- The log of `u` has grown to that of `t` by entries that keep to the rule, and what they leave is what `t` relies on (`rel`),
unless the command has ended. -/
def Grows (a : α) (u t : State) : Prop :=
  ∃ new, t.log = u.log ++ new ∧ R.check a new = true ∧ (t.seq = .idle ∨ rel (R.after a new) t)

variable {R rel}

/-- Two pieces of the log, one after the other. -/
theorem Grows.trans {a : α} {s u t : State} {new : List Access} (log : u.log = s.log ++ new) (ok : R.check a new = true)
    (h : R.Grows rel (R.after a new) u t) : R.Grows rel a s t := by
  obtain ⟨new', log', ok', next⟩ := h
  refine ⟨new ++ new', by rw [log', log, List.append_assoc], ?_, ?_⟩
  · rw [R.check_append, ok, ok']; rfl
  · rw [R.after_append]; exact next

/-- A step that makes no transaction. -/
theorem Grows.silent {a : α} {u t : State} (h : t.seq = .idle ∨ rel a t) (log : t.log = u.log := by rfl) :
    R.Grows rel a u t :=
  ⟨[], by rw [log, List.append_nil], R.check_nil a, by rw [R.after_nil]; exact h⟩

/-- A poll adds its snapshot; a fault branch ends the command or goes as the rest (42_fault_detector R167). -/
theorem Grows.pollThen {a : α} {kind : PollKind} {f g : State → State} {e : Resp → State → State} {u : State}
    (ok : ∀ st, R.check a [.snapshot st] = true)
    (hf : poll kind (snapshot u).stat = .ready →
      R.Grows rel (R.after a [.snapshot (snapshot u).stat]) (snapshot u) (f (snapshot u)))
    (hg : R.Grows rel (R.after a [.snapshot (snapshot u).stat]) (snapshot u) (g (snapshot u)))
    (he : ∀ r v, (e r v).seq = .idle ∧ (e r v).log = v.log) :
    R.Grows rel a u (Machine.pollThen kind f g e u) := by
  refine .trans (snapshot_log u) (ok _) ?_
  rcases pollThen_cases kind f g e u with ⟨hp, p⟩ | ⟨-, p⟩ | ⟨-, p⟩ | ⟨-, p⟩ <;> rw [p]
  · exact hf hp
  · exact hg
  · exact .silent (.inl (he _ _).1) (he _ _).2
  · exact .silent (.inl (he _ _).1) (he _ _).2

/-- In every run of a command whose micro-steps keep to the rule, the log keeps to it. -/
theorem check_of_run (busy : ∀ a u, rel a u → u.seq ≠ .idle) (tick : ∀ a u, rel a u → rel a (tick u))
    (step : ∀ a u t, rel a u → microStep u = .next t → R.Grows rel a u t) {a : α} {s t : State} {k : Nat} (hs : rel a s)
    (ho : s.outside = []) (h : runSteps k s = .next t) : ∃ new, t.log = s.log ++ new ∧ R.check a new = true := by
  have course : Course (fun u => ∃ new, u.log = s.log ++ new ∧ R.check a new = true ∧ rel (R.after a new) u)
      (fun u => u.seq = .idle ∧ ∃ new, u.log = s.log ++ new ∧ R.check a new = true) := by
    refine ⟨?_, ?_, fun u h => h.1, ?_, ?_, fun u h => h⟩
    · rintro u ⟨new, -, -, hu⟩
      exact busy _ u hu
    · rintro u t ⟨new, log, ok, hu⟩ hm
      obtain ⟨all, log, ok, idle | next⟩ := Grows.trans log ok (step _ u t hu hm)
      · exact .inr ⟨idle, all, log, ok⟩
      · exact .inl ⟨all, log, ok, next⟩
    · rintro u (⟨new, log, ok, -⟩ | ⟨-, new, log, ok⟩) <;> exact ⟨rfl, new, log, ok⟩
    · rintro u ⟨new, log, ok, hu⟩
      exact ⟨new, log, ok, tick _ u hu⟩
  have start : ∃ new, s.log = s.log ++ new ∧ R.check a new = true ∧ rel (R.after a new) s :=
    ⟨[], by rw [List.append_nil], R.check_nil a, by rw [R.after_nil]; exact hs⟩
  obtain ⟨new, log, ok, -⟩ | ⟨-, new, log, ok⟩ := course.of_run start ho h <;> exact ⟨new, log, ok⟩

end LogRule

theorem failTransfer_ends (w : Width) (r : Resp) (s : State) :
    (failTransfer w r s).seq = .idle ∧ (failTransfer w r s).log = s.log :=
  ⟨failTransfer_seq w r s, failTransfer_log w r s⟩

theorem respondError_ends (r : Resp) (s : State) : (respondError r s).seq = .idle ∧ (respondError r s).log = s.log :=
  ⟨respondError_seq r s, respondError_log r s⟩

/-! ## Every data read follows a poll that returned Ready -/

/-- What a micro-state of a transfer relies on: a store step, that the latest register transaction was a poll that returned Ready
for receiving. -/
def Armed (armed : Bool) (u : State) : Prop := inTransfer u.seq = true ∧ (storesElem u.seq ≠ none → armed = true)

/-- A micro-state that reads no data relies on nothing. -/
theorem armed_of_no_store {armed : Bool} {u : State} (hq : inTransfer u.seq = true) (hs : storesElem u.seq = none) :
    Armed armed u := ⟨hq, fun h => absurd hs h⟩

theorem armed_silent {armed : Bool} {u t : State} (hq : inTransfer t.seq = true) (hs : storesElem t.seq = none)
    (log : t.log = u.log := by rfl) : pollRule.Grows Armed armed u t := .silent (.inr (armed_of_no_store hq hs)) log

theorem armed_microStep {armed : Bool} {u t : State} (h : Armed armed u) (hm : microStep u = .next t) :
    pollRule.Grows Armed armed u t := by
  obtain ⟨hq, ha⟩ := h
  unfold microStep at hm
  cases e : u.seq <;> simp only [e] at hm hq ha
  case x8Setup | x16Setup | w8Setup | w16Setup => cases hm; exact ⟨_, rfl, rfl, .inr (armed_of_no_store rfl rfl)⟩
  case x8Main | x8Fill | x8Drain | w8Test | w8Cap | w16Test =>
    cases hm
    split <;> exact armed_silent rfl rfl
  case x16Test =>
    cases hm
    split
    · exact armed_silent rfl rfl
    · exact .silent (.inl rfl)
  case x8FillPoll | x16SendPoll =>
    cases hm
    exact .pollThen (fun _ => rfl) (fun _ => armed_silent rfl rfl) (armed_silent rfl rfl) (failTransfer_ends _)
  case x8ReadPoll =>
    cases hm
    refine .pollThen (fun _ => rfl) (fun hp => .silent (.inr ?_)) (armed_silent rfl rfl) (failTransfer_ends _)
    split
    · exact ⟨rfl, fun _ => decide_eq_true hp⟩
    · exact armed_of_no_store rfl rfl
  case x8DrainPoll =>
    cases hm
    refine .pollThen (fun _ => rfl) (fun hp => .silent (.inr ⟨rfl, fun _ => decide_eq_true hp⟩)) ?_
      (failTransfer_ends _)
    unfold drainBlocked
    split
    · exact armed_silent rfl rfl
    · exact .silent (.inl (failTransfer_seq _ _ _)) (failTransfer_log _ _ _)
  case x16RecvPoll =>
    cases hm
    exact .pollThen (fun _ => rfl) (fun hp => .silent (.inr ⟨rfl, fun _ => decide_eq_true hp⟩))
      (armed_silent rfl rfl) (failTransfer_ends _)
  case w8InitPoll | w16Poll =>
    cases hm
    exact .pollThen (fun _ => rfl) (fun _ => armed_silent rfl rfl) (armed_silent rfl rfl) respondError_ends
  case w8FinalPoll | w16FinalPoll =>
    cases hm
    exact .pollThen (fun _ => rfl) (fun _ => .silent (.inl rfl)) (armed_silent rfl rfl) fun _ _ => ⟨rfl, rfl⟩
  case x8Final =>
    cases hm
    refine ⟨[.snapshot (envStatus u.env u.draws)], ?_, rfl, .inl ?_⟩
    · split
      · exact failLate_log _ _
      · rfl
    · split
      · exact respondError_seq _ _
      · rfl
  case w8CapRead => cases hm; exact ⟨_, rfl, rfl, .inr (armed_of_no_store rfl rfl)⟩
  case x8FillSend | x16Send | w16Send =>
    obtain ⟨-, rfl⟩ := sendElem_next_elemSent hm
    exact ⟨_, rfl, rfl, .inr (armed_of_no_store rfl rfl)⟩
  case w8Send =>
    unfold wr8Send at hm
    split at hm
    · cases hm
    · obtain ⟨-, rfl⟩ := sendElem_next_elemSent hm
      exact ⟨_, rfl, rfl, .inr (armed_of_no_store rfl rfl)⟩
  case x8ReadStore | x8DrainStore | x16Store =>
    cases ha nofun
    obtain ⟨-, rfl⟩ := storeElem_next_elemStored hm
    exact ⟨_, rfl, rfl, .inr (armed_of_no_store rfl rfl)⟩
  all_goals cases hq

/-! ## XFER16 alternates writes and reads -/

/-- Whether XFER16 has an element outstanding in its micro-state (43_transfer R182). -/
def Outstanding (outstanding : Bool) (u : State) : Prop :=
  inXfer16 u.seq = true ∧ outstanding = (decide (u.seq = .x16RecvPoll) || decide (u.seq = .x16Store))

theorem outstanding_microStep {outstanding : Bool} {u t : State} (h : Outstanding outstanding u)
    (hm : microStep u = .next t) : alternationRule.Grows Outstanding outstanding u t := by
  obtain ⟨hq, rfl⟩ := h
  unfold microStep at hm
  cases e : u.seq <;> simp only [e] at hm hq ⊢
  case x16Setup => cases hm; exact ⟨_, rfl, rfl, .inr ⟨rfl, rfl⟩⟩
  case x16Test =>
    cases hm
    split
    · exact .silent (.inr ⟨rfl, rfl⟩)
    · exact .silent (.inl rfl)
  case x16SendPoll | x16RecvPoll =>
    cases hm
    exact .pollThen (fun _ => rfl) (fun _ => .silent (.inr ⟨rfl, rfl⟩)) (.silent (.inr ⟨rfl, rfl⟩))
      (failTransfer_ends _)
  case x16Send =>
    obtain ⟨-, rfl⟩ := sendElem_next_elemSent hm
    exact ⟨_, rfl, rfl, .inr ⟨rfl, rfl⟩⟩
  case x16Store =>
    obtain ⟨-, rfl⟩ := storeElem_next_elemStored hm
    exact ⟨_, rfl, rfl, .inr ⟨rfl, rfl⟩⟩
  all_goals cases hq

/-! ## WR8 keeps to its credit -/

/-- The micro-states of WR8 (10_state R23). -/
def inWr8 : Seq → Bool
  | .w8Setup | .w8InitPoll | .w8Test | .w8Cap | .w8CapRead | .w8Send | .w8FinalPoll => true
  | _ => false

/-- The estimate of a level as a number of data writes (42_fault_detector R165). -/
def creditOf (c : BitVec 2) : Nat := (txcap c).toNat

/-- The writes that the level reads of the log still allow are the credit of WR8 (44_write R203). -/
def Credited (left : Nat) (u : State) : Prop := inWr8 u.seq = true ∧ left = u.cap.toNat

theorem credited_microStep {left : Nat} {u t : State} (h : Credited left u) (hm : microStep u = .next t) :
    (creditRule creditOf).Grows Credited left u t := by
  obtain ⟨hq, rfl⟩ := h
  unfold microStep at hm
  cases e : u.seq <;> simp only [e] at hm hq
  case w8Setup => cases hm; exact ⟨_, rfl, rfl, .inr ⟨rfl, rfl⟩⟩
  case w8InitPoll =>
    cases hm
    exact .pollThen (fun _ => rfl) (fun _ => .silent (.inr ⟨rfl, rfl⟩)) (.silent (.inr ⟨rfl, rfl⟩)) respondError_ends
  case w8Test | w8Cap =>
    cases hm
    split <;> exact .silent (.inr ⟨rfl, rfl⟩)
  case w8CapRead => cases hm; exact ⟨_, rfl, rfl, .inr ⟨rfl, rfl⟩⟩
  case w8Send =>
    unfold wr8Send at hm
    split at hm
    next => cases hm
    next hc =>
      obtain ⟨-, rfl⟩ := sendElem_next_elemSent hm
      have hpos : 0 < u.cap.toNat := Nat.pos_of_ne_zero fun h => hc (BitVec.eq_of_toNat_eq h)
      have hpred : u.cap.toNat - 1 = (u.cap - 1#3).toNat := by bv_omega
      exact ⟨_, rfl, by simp [creditRule, writesWithin, hpos], .inr ⟨rfl, hpred⟩⟩
  case w8FinalPoll =>
    cases hm
    exact .pollThen (fun _ => rfl) (fun _ => .silent (.inl rfl)) (.silent (.inr ⟨rfl, rfl⟩)) fun _ _ => ⟨rfl, rfl⟩
  all_goals cases hq

/-! ## The discipline -/

theorem readsFollowPolls_of_run {s t : State} {k : Nat} (hq : inTransfer s.seq = true) (hs : storesElem s.seq = none)
    (ho : s.outside = []) (h : runSteps k s = .next t) : ∃ new, t.log = s.log ++ new ∧ readsFollowPolls false new = true :=
  pollRule.check_of_run (fun _ u h hi => by rw [Armed, hi] at h; cases h.1) (fun _ _ h => h) (fun _ _ _ => armed_microStep)
    (armed_of_no_store hq hs) ho h

theorem alternates_of_run {s t : State} {k : Nat} (hq : s.seq = .x16Setup) (ho : s.outside = [])
    (h : runSteps k s = .next t) : ∃ new, t.log = s.log ++ new ∧ alternates false new = true :=
  alternationRule.check_of_run (fun _ u h hi => by rw [Outstanding, hi] at h; cases h.1) (fun _ _ h => h)
    (fun _ _ _ => outstanding_microStep) (by rw [Outstanding, hq]; exact ⟨rfl, rfl⟩) ho h

theorem writesWithin_of_run {s t : State} {k : Nat} (hq : s.seq = .w8Setup) (hc : s.cap = 0#3) (ho : s.outside = [])
    (h : runSteps k s = .next t) : ∃ new, t.log = s.log ++ new ∧ writesWithin creditOf 0 new = true :=
  (creditRule creditOf).check_of_run (fun _ u h hi => by rw [Credited, hi] at h; cases h.1) (fun _ _ h => h)
    (fun _ _ _ => credited_microStep) (by rw [Credited, hq, hc]; exact ⟨rfl, rfl⟩) ho h

/-- Settles O47: each rule of the log along the run; the growth of the log is the same for all three. -/
theorem transferLogDiscipline : Obligations.TransferLogDiscipline := by
  intro s t k hq _ ho h
  have transfer : inTransfer s.seq = true ∧ storesElem s.seq = none := by
    obtain e | e | ⟨e, -⟩ := hq <;> rw [e] <;> exact ⟨rfl, rfl⟩
  obtain ⟨new, log, polls⟩ := readsFollowPolls_of_run transfer.1 transfer.2 ho h
  have same {new'} (log' : t.log = s.log ++ new') : new' = new := List.append_cancel_left (log'.symm.trans log)
  refine ⟨new, log, polls, fun e => ?_, fun e => ?_⟩
  · obtain ⟨new', log', alternate⟩ := alternates_of_run e ho h
    exact same log' ▸ alternate
  · have hc : s.cap = 0#3 := by simpa [e] using hq
    obtain ⟨new', log', credit⟩ := writesWithin_of_run e hc ho h
    cases same log'
    exact ⟨credit, writesWithin_mono txcap_le_four le_rfl credit⟩

end Sys2Proof.Machine
end

section
/-! PROOFS. The full-duplex transfers over the direct loopback ENV-LOOP0 (43_transfer R176, R182; 95_test_vectors section 0): what
waits in the loopback is what has been sent and not yet received, so every poll that matters returns Ready, what is stored is what
was there, and each micro-step brings the transfer nearer to its end. -/

namespace Sys2Proof.Machine

/-! ## A buffer that reads as before -/

theorem readElem_congr {m m' : Memory} (h : ∀ a, readByte m a = readByte m' a) (w : Width) (i : Nat) :
    readElem w m i = readElem w m' i := by
  cases w <;> simp only [readElem, h]

theorem bufferElems_congr {m m' : Memory} (h : ∀ a, readByte m a = readByte m' a) (w : Width) (k : Nat) :
    bufferElems w m k = bufferElems w m' k :=
  List.map_congr_left fun i _ => readElem_congr h w i

theorem length_bufferElems (w : Width) (m : Memory) (k : Nat) : (bufferElems w m k).length = k := by simp [bufferElems]

/-- Writing back the value of an element changes no byte. -/
theorem readByte_writeElem_readElem (w : Width) (m : Memory) (i a : Nat) :
    readByte (writeElem w m i (readElem w m i)) a = readByte m a := by
  by_cases h : a < elemAddr w i ∨ elemAddr w (i + 1) ≤ a
  · exact readByte_writeElem_outside w m i _ h
  · cases w with
    | w8 =>
      simp only [elemAddr_w8] at h
      obtain rfl : a = elemAddr .w8 i := by rw [elemAddr_w8]; omega
      simp [writeElem, readElem, readByte_writeByte_same]
    | w16 =>
      simp only [elemAddr_w16] at h
      obtain rfl | rfl : a = elemAddr .w16 i ∨ a = elemAddr .w16 i + 1 := by rw [elemAddr_w16]; omega
      · rw [writeElem, readByte_writeByte_ne _ _ (by omega), readByte_writeByte_same, readElem]
        exact BitVec.extractLsb'_append_eq_right
      · rw [writeElem, readByte_writeByte_same, readElem]
        exact BitVec.extractLsb'_append_eq_left

/-! ## What the loopback answers -/

theorem poll_send_loopStatus (q : List Half) : poll .send (loopStatus q) = .ready := rfl

theorem poll_recv_loopStatus {q : List Half} (h : q ≠ []) : poll .recv (loopStatus q) = .ready := by
  cases q with
  | nil => exact absurd rfl h
  | cons => rfl

/-! ## A transfer over the loopback -/

/-- The elements of the buffer that have been sent and not yet received. -/
def inFlight (w : Width) (s u : State) : List Half := (bufferElems w s.mem u.wpos.toNat).drop u.rpos.toNat

theorem inFlight_eq_nil {w : Width} {s u : State} (h : u.wpos.toNat ≤ u.rpos.toNat) : inFlight w s u = [] :=
  List.drop_eq_nil_of_le ((length_bufferElems ..).trans_le h)

theorem inFlight_eq_cons {w : Width} {s u : State} (h : u.rpos.toNat < u.wpos.toNat) : inFlight w s u =
    readElem w s.mem u.rpos.toNat :: (bufferElems w s.mem u.wpos.toNat).drop (u.rpos.toNat + 1) := by
  rw [inFlight, List.drop_eq_getElem_cons ((length_bufferElems ..).symm ▸ h)]
  simp [bufferElems]

/-- A full-duplex transfer begun in `s`, over the loopback and after its first step: the handle is as it was but for the direction,
what waits in the environment is what is in flight, and every byte of memory reads as before. -/
structure Looping (w : Width) (s u : State) : Prop where
  fault : u.fault = .noFault
  resets : u.resets = []
  own : u.own = s.own
  cfg : u.cfg = s.cfg
  ctrl1 : u.ctrl1 = { s.ctrl1 with bidimode := false }
  ctrl2 : u.ctrl2 = s.ctrl2
  done : Exchanged w s u
  env : u.env = .loop0 (inFlight w s u)
  mem : ∀ a, readByte u.mem a = readByte s.mem a

namespace Looping

variable {w : Width} {s u : State}

protected theorem goto (h : Looping w s u) (q : Seq) : Looping w s (goto q u) :=
  ⟨h.fault, h.resets, h.own, h.cfg, h.ctrl1, h.ctrl2, h.done.goto q, h.env, h.mem⟩

protected theorem finish (h : Looping w s u) (r : Resp) : Looping w s (finish r u) :=
  ⟨h.fault, h.resets, h.own, h.cfg, h.ctrl1, h.ctrl2, h.done.of_same, h.env, h.mem⟩

protected theorem snapshot (h : Looping w s u) : Looping w s (snapshot u) :=
  ⟨h.fault, h.resets, h.own, h.cfg, h.ctrl1, h.ctrl2, h.done.snapshot, by simp only [snapshot_env, h.env]; rfl, h.mem⟩

theorem envStatus_eq (h : Looping w s u) : envStatus u.env u.draws = loopStatus (inFlight w s u) := by rw [h.env]; rfl

/-- The loopback is always ready to send. -/
theorem ready_to_send (h : Looping w s u) : poll .send (envStatus u.env u.draws) = .ready := by
  rw [h.envStatus_eq, poll_send_loopStatus]

/-- The loopback is ready to be read while an element is in flight. -/
theorem ready_to_receive (h : Looping w s u) (hlt : u.rpos.toNat < u.wpos.toNat) :
    poll .recv (envStatus u.env u.draws) = .ready := by
  rw [h.envStatus_eq, inFlight_eq_cons hlt]
  exact poll_recv_loopStatus (List.cons_ne_nil _ _)

/-- With nothing in flight a poll for receiving blocks. -/
theorem nothing_to_receive (h : Looping w s u) (hle : u.wpos.toNat ≤ u.rpos.toNat) :
    poll .recv (envStatus u.env u.draws) = .wouldBlock := by
  rw [h.envStatus_eq, inFlight_eq_nil hle]
  rfl

/-- The element sent is in flight behind the others. -/
protected theorem sendElem (h : Looping w s u) (hle : u.rpos.toNat ≤ u.wpos.toNat) (hlt : u.wpos.toNat < u.n.toNat)
    (q : Seq) : Looping w s (elemSent w q u) := by
  have hsucc : (u.wpos + 1#32).toNat = u.wpos.toNat + 1 := cursor_succ (BitVec.lt_def.2 hlt)
  refine ⟨h.fault, h.resets, h.own, h.cfg, h.ctrl1, h.ctrl2, h.done.sendElem hle hlt q, ?_, h.mem⟩
  have queued : inFlight w s (elemSent w q u) = inFlight w s u ++ [readElem w u.mem u.wpos.toNat] := by
    simp only [inFlight, elemSent, hsucc, bufferElems_succ, readElem_congr h.mem]
    exact List.drop_append_of_le_length ((length_bufferElems ..).symm ▸ hle)
  rw [queued]
  simp [elemSent, h.env, h.ctrl1, envAfterWrite]

/-- The value received is the one the element still has. -/
theorem dataValue_eq (h : Looping w s u) (hlt : u.rpos.toNat < u.wpos.toNat) :
    dataValue w u = readElem w u.mem u.rpos.toNat := by
  rw [dataValue, h.env, inFlight_eq_cons hlt, readElem_congr h.mem]
  exact narrow_readElem w s.mem _

protected theorem storeElem (h : Looping w s u) (hlt : u.rpos.toNat < u.wpos.toNat) (hle : u.wpos.toNat ≤ u.n.toNat)
    (q : Seq) : Looping w s (elemStored w q u) := by
  have hn : u.rpos.toNat < u.n.toNat := hlt.trans_le hle
  have hsucc : (u.rpos + 1#32).toNat = u.rpos.toNat + 1 := cursor_succ (BitVec.lt_def.2 hn)
  refine ⟨h.fault, h.resets, h.own, h.cfg, h.ctrl1, h.ctrl2, h.done.storeElem hn q, ?_, fun a => ?_⟩
  · have taken : inFlight w s (elemStored w q u) = (bufferElems w s.mem u.wpos.toNat).drop (u.rpos.toNat + 1) := by
      simp only [inFlight, elemStored, hsucc]
    rw [taken]
    simp only [elemStored, h.env, inFlight_eq_cons hlt, envAfterData]
  · simp only [elemStored, h.dataValue_eq hlt]
    rw [readByte_writeElem_readElem, h.mem]

end Looping

/-- A full-duplex transfer begun in `s` has ended over the loopback. -/
structure LoopEnded (w : Width) (s u : State) : Prop where
  seq : u.seq = .idle
  resp : u.resp = .ok
  wpos : u.wpos.toNat = s.n.toNat
  rpos : u.rpos.toNat = s.n.toNat
  loop : Looping w s u

/-- What the first step of a full-duplex transfer leaves. -/
theorem Looping.start {w : Width} {s : State} (hf : s.fault = .noFault) (hn : NoResetToCome s) (hw : s.wpos = 0#32)
    (hr : s.rpos = 0#32) (he : s.env = .loop0 []) (q : Seq) : Looping w s (Machine.goto q (regWrite [.bidimode false] s)) := by
  have direction : Looping w s (regWrite [.bidimode false] s) := by
    refine ⟨hf, hn, rfl, rfl, ?_, rfl, (Exchanged.start hw hr).regWrite _, ?_, fun _ => rfl⟩
    · rw [regWrite_ctrl1, ctrl1AfterWrite_other rfl]; rfl
    · rw [inFlight_eq_nil (by simp [hw])]; exact he
  exact direction.goto q

/-! ## A run that comes to its end -/

/-- Where each step leads to the end or nearer to it, a run reaches the end. -/
theorem run_ends {running ended : State → Prop} {left : State → Nat}
    (next : ∀ u, running u → ∃ t, step u = .next t ∧ (ended t ∨ running t ∧ left t < left u)) {s : State}
    (hs : running s) : ∃ k t, runSteps k s = .next t ∧ ended t := by
  induction hl : left s using Nat.strong_induction_on generalizing s with
  | _ l ih =>
    obtain ⟨t, hstep, ht | ⟨ht, hlt⟩⟩ := next s hs
    · exact ⟨1, t, runSteps_first hstep (runSteps_zero t), ht⟩
    · obtain ⟨k, u, hrun, hu⟩ := ih (left t) (hl ▸ hlt) ht rfl
      exact ⟨k + 1, u, runSteps_first hstep hrun, hu⟩

/-- What one micro-step over the loopback leads to: the end, or a state that meets `row` again and has less `left` to do. -/
def LoopStep (w : Width) (row : State → Prop) (left : State → Nat) (s u : State) : Prop :=
  ∃ t, microStep u = .next t ∧ (LoopEnded w s t ∨ (row t ∧ Looping w s t) ∧ left t < left u)

/-- A full-duplex transfer whose micro-steps over the loopback lead to its end, after the first, ends. -/
theorem loop_ends {w : Width} {row : State → Prop} {left : State → Nat} {s : State} {q : Seq}
    (next : ∀ u, row u → Looping w s u → LoopStep w row left s u) (hf : s.fault = .noFault) (hn : NoResetToCome s)
    (hw : s.wpos = 0#32) (hr : s.rpos = 0#32) (he : s.env = .loop0 [])
    (first : microStep s = .next (goto q (regWrite [.bidimode false] s))) (hq : row (goto q (regWrite [.bidimode false] s))) :
    ∃ k u, runSteps k s = .next u ∧ LoopEnded w s u := by
  have step_next : ∀ u, row u ∧ Looping w s u →
      ∃ t, step u = .next t ∧ (LoopEnded w s t ∨ (row t ∧ Looping w s t) ∧ left t < left u) := by
    rintro u ⟨hu, loop⟩
    rw [step_eq_microStep_of_none loop.fault loop.resets]
    exact next u hu loop
  obtain ⟨k, u, hrun, hu⟩ := run_ends step_next ⟨hq, .start hf hn hw hr he q⟩
  exact ⟨k + 1, u, runSteps_microStep hf hn first hrun, hu⟩

/-! ## XFER8 -/

/-- The cursors of XFER8 over the loopback: the fill phase sends all elements before the first is read, the read phase reads them
all, and nothing is left to drain. -/
def ByteRow (u : State) : Prop :=
  match u.seq with
  | .x8Main => u.rpos.toNat = u.wpos.toNat ∧ u.wpos.toNat ≤ u.n.toNat
  | .x8Fill => u.rpos.toNat ≤ u.wpos.toNat ∧ u.wpos.toNat ≤ u.n.toNat
  | .x8FillPoll | .x8FillSend => u.rpos.toNat ≤ u.wpos.toNat ∧ u.wpos.toNat < u.n.toNat
  | .x8ReadPoll => u.rpos.toNat ≤ u.wpos.toNat ∧ u.wpos.toNat = u.n.toNat
  | .x8ReadStore => u.rpos.toNat < u.wpos.toNat ∧ u.wpos.toNat = u.n.toNat
  | .x8Drain | .x8Final => u.rpos.toNat = u.wpos.toNat ∧ u.wpos.toNat = u.n.toNat
  | _ => False

/-- How far XFER8 is from its end over the loopback: at most this many steps. -/
def byteLeft (u : State) : Nat :=
  3 * (u.n.toNat - u.wpos.toNat) + 3 * (u.n.toNat - u.rpos.toNat) +
    match u.seq with
    | .x8Main => if u.wpos < u.n then 6 else 3
    | .x8Fill => 5
    | .x8FillPoll | .x8ReadPoll => 4
    | .x8FillSend | .x8ReadStore => 3
    | .x8Drain => 2
    | _ => 1

/-- Each micro-step of XFER8 over the loopback. -/
theorem xfer8_loopStep {s u : State} (row : ByteRow u) (h : Looping .w8 s u) : LoopStep .w8 ByteRow byteLeft s u := by
  unfold LoopStep microStep
  unfold ByteRow at row
  unfold byteLeft
  cases e : u.seq <;> simp only [e] at row ⊢
  case x8Main =>
    refine ⟨_, rfl, .inr ?_⟩
    by_cases hlt : u.wpos < u.n
    · simp only [if_pos hlt]
      exact ⟨⟨⟨row.1.le, row.2⟩, h.goto _⟩, by simp⟩
    · simp only [if_neg hlt]
      rw [BitVec.lt_def] at hlt
      have row : u.rpos.toNat = u.wpos.toNat ∧ u.wpos.toNat = u.n.toNat := by omega
      exact ⟨⟨row, h.goto _⟩, by simp⟩
  case x8Fill =>
    refine ⟨_, rfl, .inr ?_⟩
    by_cases hlt : u.wpos < u.n
    · rw [if_pos hlt]
      exact ⟨⟨⟨row.1, BitVec.lt_def.1 hlt⟩, h.goto _⟩, by simp⟩
    · rw [if_neg hlt]
      rw [BitVec.lt_def] at hlt
      have row : u.rpos.toNat ≤ u.wpos.toNat ∧ u.wpos.toNat = u.n.toNat := by omega
      exact ⟨⟨row, h.goto _⟩, by simp⟩
  case x8FillPoll =>
    rw [xfer8FillPoll, pollThen_of_ready h.ready_to_send]
    exact ⟨_, rfl, .inr ⟨⟨row, h.snapshot.goto _⟩, by simp⟩⟩
  case x8FillSend =>
    have hs : (u.wpos + 1#32).toNat = u.wpos.toNat + 1 := cursor_succ (BitVec.lt_def.2 row.2)
    have after : u.rpos.toNat ≤ (u.wpos + 1#32).toNat ∧ (u.wpos + 1#32).toNat ≤ u.n.toNat := by omega
    refine ⟨_, sendElem_of_toNat_lt row.2 _, .inr ⟨⟨after, h.sendElem row.1 row.2 _⟩, ?_⟩⟩
    simp only [elemSent, hs]
    omega
  case x8ReadPoll =>
    rw [xfer8ReadPoll]
    by_cases hlt : u.rpos.toNat < u.wpos.toNat
    · have outstanding : (snapshot u).rpos < (snapshot u).wpos := BitVec.lt_def.2 hlt
      rw [pollThen_of_ready (h.ready_to_receive hlt), if_pos outstanding]
      exact ⟨_, rfl, .inr ⟨⟨⟨hlt, row.2⟩, h.snapshot.goto _⟩, by simp⟩⟩
    · have sent_all : ¬u.wpos < u.n := by rw [BitVec.lt_def]; omega
      have row : u.rpos.toNat = u.wpos.toNat ∧ u.wpos.toNat ≤ u.n.toNat := by omega
      rw [pollThen_of_wouldBlock (h.nothing_to_receive row.1.ge)]
      exact ⟨_, rfl, .inr ⟨⟨row, h.snapshot.goto _⟩, by simp [sent_all]⟩⟩
  case x8ReadStore =>
    have hlt : u.rpos.toNat < u.n.toNat := row.2 ▸ row.1
    have hs : (u.rpos + 1#32).toNat = u.rpos.toNat + 1 := cursor_succ (BitVec.lt_def.2 hlt)
    have after : (u.rpos + 1#32).toNat ≤ u.wpos.toNat ∧ u.wpos.toNat = u.n.toNat := by omega
    refine ⟨_, storeElem_of_toNat_lt hlt _, .inr ⟨⟨after, h.storeElem row.1 row.2.le _⟩, ?_⟩⟩
    simp only [elemStored, hs]
    omega
  case x8Drain =>
    have read_all : ¬u.rpos < u.n := by rw [BitVec.lt_def]; omega
    rw [xfer8Drain, if_neg read_all]
    exact ⟨_, rfl, .inr ⟨⟨row, h.goto _⟩, by simp⟩⟩
  case x8Final =>
    have no_overrun : ¬(snapshot u).stat.ovr = true := by rw [snapshot_stat, h.envStatus_eq]; nofun
    rw [xfer8Final, if_neg no_overrun]
    have hw : u.wpos.toNat = s.n.toNat := row.2.trans (congrArg BitVec.toNat h.done.n)
    exact ⟨_, rfl, .inl ⟨rfl, rfl, hw, row.1.trans hw, h.snapshot.finish _⟩⟩

/-! ## XFER16 -/

/-- How far XFER16 is from its end over the loopback: this many steps. -/
def halfwordLeft (u : State) : Nat :=
  5 * (u.n.toNat - u.wpos.toNat) +
    match u.seq with
    | .x16Test => 5
    | .x16SendPoll => 4
    | .x16Send => 3
    | .x16RecvPoll => 7
    | .x16Store => 6
    | _ => 0

/-- The micro-states of XFER16 after the first, with their cursors (43_transfer R180). -/
structure HalfwordRow (u : State) : Prop where
  seq : inXfer16 u.seq = true
  started : u.seq ≠ .x16Setup
  cursors : CursorsOk u

/-- Each micro-step of XFER16 over the loopback, after the first. -/
theorem xfer16_loopStep {s u : State} (hu : HalfwordRow u) (h : Looping .w16 s u) :
    LoopStep .w16 HalfwordRow halfwordLeft s u := by
  obtain ⟨hq, hne, row⟩ := hu
  unfold LoopStep microStep
  unfold CursorsOk at row
  unfold halfwordLeft
  cases e : u.seq <;> simp only [e] at row hq hne ⊢
  case x16Setup => exact absurd rfl hne
  case x16Test =>
    refine ⟨_, rfl, ?_⟩
    split
    next hlt => exact .inr ⟨⟨⟨rfl, nofun, row.1, BitVec.lt_def.1 hlt⟩, h.goto _⟩, by simp⟩
    next hlt =>
      rw [BitVec.lt_def] at hlt
      have hw : u.wpos.toNat = s.n.toNat := by rw [← h.done.n]; omega
      exact .inl ⟨rfl, rfl, hw, row.1.trans hw, h.finish _⟩
  case x16SendPoll =>
    rw [xfer16SendPoll, pollThen_of_ready h.ready_to_send]
    exact ⟨_, rfl, .inr ⟨⟨⟨rfl, nofun, row⟩, h.snapshot.goto _⟩, by simp⟩⟩
  case x16Send =>
    have hs : (u.wpos + 1#32).toNat = u.wpos.toNat + 1 := cursor_succ (BitVec.lt_def.2 row.2)
    have after : u.rpos.toNat + 1 = (u.wpos + 1#32).toNat ∧ (u.wpos + 1#32).toNat ≤ u.n.toNat := by omega
    refine ⟨_, sendElem_of_toNat_lt row.2 _, .inr ⟨⟨⟨rfl, nofun, after⟩, h.sendElem row.1.le row.2 _⟩, ?_⟩⟩
    simp only [elemSent, hs]
    omega
  case x16RecvPoll =>
    have hlt : u.rpos.toNat < u.wpos.toNat := by omega
    rw [xfer16RecvPoll, pollThen_of_ready (h.ready_to_receive hlt)]
    exact ⟨_, rfl, .inr ⟨⟨⟨rfl, nofun, row⟩, h.snapshot.goto _⟩, by simp⟩⟩
  case x16Store =>
    have hlt : u.rpos.toNat < u.wpos.toNat := by omega
    have hs : (u.rpos + 1#32).toNat = u.rpos.toNat + 1 := cursor_succ (BitVec.lt_def.2 (hlt.trans_le row.2))
    have after : (u.rpos + 1#32).toNat = u.wpos.toNat ∧ u.wpos.toNat ≤ u.n.toNat := by omega
    exact ⟨_, storeElem_of_toNat_lt (hlt.trans_le row.2) _,
      .inr ⟨⟨⟨rfl, nofun, after⟩, h.storeElem hlt row.2 _⟩, by simp [elemStored]⟩⟩
  all_goals cases hq

/-! ## The whole run -/

/-- What the end of a transfer over the loopback says (43_transfer R176, R182). -/
theorem LoopEnded.result {w : Width} {s u : State} (h : LoopEnded w s u) :
    EndedWell .ok u ∧ u.own = s.own ∧ u.cfg = s.cfg ∧
    u.wpos.toNat = s.n.toNat ∧ u.rpos.toNat = s.n.toNat ∧ u.env = .loop0 [] ∧
    u.ctrl1 = { s.ctrl1 with bidimode := false } ∧ u.ctrl2 = s.ctrl2 ∧
    sentValues u.log = sentValues s.log ++ bufferElems w s.mem s.n.toNat ∧
    receivedValues u.log = receivedValues s.log ++ bufferElems w s.mem s.n.toNat ∧
    ∀ a, readByte u.mem a = readByte s.mem a := by
  obtain ⟨seq, resp, wpos, rpos, ⟨fault, -, own, cfg, ctrl1, ctrl2, ⟨-, sent, received, -⟩, env, mem⟩⟩ := h
  rw [inFlight_eq_nil (wpos.trans rpos.symm).le] at env
  rw [wpos] at sent
  rw [rpos, bufferElems_congr mem] at received
  exact ⟨⟨seq, fault, resp⟩, own, cfg, wpos, rpos, env, ctrl1, ctrl2, sent, received, mem⟩

theorem toNat_ofNat_length {n : Nat} (h : n < 2 ^ 32) : (BitVec.ofNat 32 n).toNat = n := by
  rw [BitVec.toNat_ofNat, Nat.mod_eq_of_lt h]

/-- Settles O41: acceptance, and the run over the loopback to its end. -/
theorem byteLoopbackCompletes : Obligations.ByteLoopbackCompletes := by
  intro n s h hw hn hlen he
  have accepted := (transfersAccepted n s h hlen).1 hw
  obtain ⟨k, u, hrun, hu⟩ := loop_ends (s := { s with
      n := BitVec.ofNat 32 n, wpos := 0#32, rpos := 0#32, tries := 0, resp := .none, seq := .x8Setup })
    (fun _ => xfer8_loopStep) h.1.2 hn rfl rfl he rfl ⟨rfl, Nat.zero_le _⟩
  have result := hu.result
  rw [toNat_ofNat_length hlen] at result
  exact ⟨_, k, u, accepted, hrun, result⟩

/-- Settles O42: the same of XFER16. -/
theorem halfwordLoopbackCompletes : Obligations.HalfwordLoopbackCompletes := by
  intro n s h hw hn hlen he
  have accepted := (transfersAccepted n s h hlen).2.1 hw
  obtain ⟨k, u, hrun, hu⟩ := loop_ends (s := { s with
      n := BitVec.ofNat 32 n, wpos := 0#32, rpos := 0#32, resp := .none, seq := .x16Setup })
    (fun _ => xfer16_loopStep) h.1.2 hn rfl rfl he rfl ⟨rfl, nofun, rfl, Nat.zero_le _⟩
  have result := hu.result
  rw [toNat_ofNat_length hlen] at result
  exact ⟨_, k, u, accepted, hrun, result⟩

end Sys2Proof.Machine
end

section
/-! PROOFS. What a send-only transfer has done when it ends, whatever the environment does (44_write R202 to R205, R208, R209): the
elements below the write cursor are sent, in order, and nothing else has happened to the buffer or on the data port. -/

namespace Sys2Proof.Machine

/-! ## The final poll -/

/-- The final poll has one branch for Ready and for either fault (44_write R204). -/
theorem finalPoll_of_not_wouldBlock {s : State} (h : poll .send (envStatus s.env s.draws) ≠ .wouldBlock) (q : Seq) :
    finalPoll q s = finish .ok (snapshot s) := by
  rcases pollThen_cases .send (finish .ok) (goto q) (fun _ => finish .ok) s with ⟨-, p⟩ | ⟨hp, -⟩ | ⟨-, p⟩ | ⟨-, p⟩
  · exact p
  · exact absurd hp h
  · exact p
  · exact p

/-- Settles O36: either final poll ends with Ok on the state after its snapshot. -/
theorem finalPollIgnoresFaults : Obligations.FinalPollIgnoresFaults := by
  intro s hf hb hq hp
  obtain hq | hq := hq
  · rw [step_w8FinalPoll hf hb hq, wr8FinalPoll, finalPoll_of_not_wouldBlock (s := tick s) hp]; rfl
  · rw [step_w16FinalPoll hf hb hq, wr16FinalPoll, finalPoll_of_not_wouldBlock (s := tick s) hp]; rfl

/-! ## What has been sent -/

/-- What a send-only transfer begun in `s` has done when it stands in `u`: the elements below the write cursor are sent, nothing is
received, and the buffer is as it was. -/
structure SentOnly (w : Width) (s u : State) : Prop where
  n : u.n = s.n
  mem : u.mem = s.mem
  sent : sentValues u.log = sentValues s.log ++ bufferElems w s.mem u.wpos.toNat
  received : receivedValues u.log = receivedValues s.log

namespace SentOnly

variable {w : Width} {s u : State}

theorem start (hw : s.wpos = 0#32) : SentOnly w s s := ⟨rfl, rfl, by simp [hw, bufferElems], rfl⟩

/-- A step that sends and receives nothing. -/
theorem of_quiet {t : State} (h : SentOnly w s u) (n : t.n = u.n := by rfl) (mem : t.mem = u.mem := by rfl)
    (wpos : t.wpos = u.wpos := by rfl) (sent : sentValues t.log = sentValues u.log := by simp [sentValues])
    (received : receivedValues t.log = receivedValues u.log := by simp [receivedValues]) : SentOnly w s t :=
  ⟨n.trans h.n, mem.trans h.mem, by rw [sent, wpos, h.sent], received.trans h.received⟩

/-- Sending the element at the write cursor. -/
protected theorem sendElem (h : SentOnly w s u) (hlt : u.wpos.toNat < u.n.toNat) (q : Seq) :
    SentOnly w s (elemSent w q u) := by
  have hsucc : (u.wpos + 1#32).toNat = u.wpos.toNat + 1 := cursor_succ (BitVec.lt_def.2 hlt)
  refine ⟨h.n, h.mem, ?_, ?_⟩
  · simp [elemSent, hsucc, bufferElems_succ, sentValues, h.sent, h.mem]
  · simp [elemSent, receivedValues, h.received]

end SentOnly

/-! ## Each micro-step of a send-only transfer -/

/-- The micro-states of WR8 and WR16, with the width of their elements (10_state R23). -/
def writeWidth : Seq → Option Width
  | .w8Setup | .w8InitPoll | .w8Test | .w8Cap | .w8CapRead | .w8Send | .w8FinalPoll => some .w8
  | .w16Setup | .w16Test | .w16Poll | .w16Send | .w16FinalPoll => some .w16
  | _ => none

/-- The first micro-state of the send-only transfer of each width. -/
def writeSetup : Width → Seq
  | .w8 => .w8Setup
  | .w16 => .w16Setup

/-- The micro-state that tests the write cursor, for each width. -/
def writeTest : Width → Seq
  | .w8 => .w8Test
  | .w16 => .w16Test

theorem inWrite_of_writeWidth {q : Seq} {w : Width} (h : writeWidth q = some w) : inWrite q = true := by
  unfold writeWidth at h
  split at h <;> trivial

/-- The send-only transfer begun in `s` runs in `u`. -/
structure Writing (w : Width) (s u : State) : Prop where
  seq : writeWidth u.seq = some w
  cursors : CursorsOk u
  done : SentOnly w s u

namespace Writing

variable {w : Width} {s u : State}

theorem start (hq : s.seq = writeSetup w) (hw : s.wpos = 0#32) : Writing w s s := by
  refine ⟨?_, ?_, .start hw⟩
  · rw [hq]; cases w <;> rfl
  · cases w <;> simp [CursorsOk, hq, writeSetup, hw]

theorem ne_idle (h : Writing w s u) : u.seq ≠ .idle := by
  intro idle
  have width := h.seq
  rw [idle] at width
  cases width

end Writing

/-- The send-only transfer begun in `s` has ended in `u`; with Ok, after all its elements. -/
structure WriteEnded (w : Width) (s u : State) : Prop where
  seq : u.seq = .idle
  cursor : u.wpos.toNat ≤ s.n.toNat
  ok : u.resp = .ok → u.wpos = s.n
  resp : u.resp = .ok ∨ u.resp = .overrun ∨ u.resp = .modeFault
  done : SentOnly w s u

/-- What one micro-step of a send-only transfer leads to. -/
def WriteStep (w : Width) (s t : State) : Prop := Writing w s t ∨ WriteEnded w s t

namespace WriteStep

variable {w : Width} {s u : State}

/-- The end with Ok, at the last element. -/
protected theorem finish (h : SentOnly w s u) (hc : u.wpos.toNat = u.n.toNat) : WriteStep w s (finish .ok u) := by
  have hw : u.wpos = s.n := (BitVec.eq_of_toNat_eq hc).trans h.n
  exact .inr ⟨rfl, (congrArg BitVec.toNat hw).le, fun _ => hw, .inl rfl, h.of_quiet⟩

/-- The end with an error that a poll has found (60_exceptions R229, R231). -/
protected theorem respondError (h : SentOnly w s u) (hc : u.wpos.toNat ≤ u.n.toNat) {r : Resp}
    (hr : r = .overrun ∨ r = .modeFault) : WriteStep w s (respondError r u) := by
  rw [h.n] at hc
  obtain rfl | rfl := hr
  · exact .inr ⟨rfl, hc, nofun, .inr (.inl rfl), h.of_quiet⟩
  · exact .inr ⟨rfl, hc, nofun, .inr (.inr rfl), h.of_quiet⟩

/-- A poll goes as its branches go (42_fault_detector R167). -/
protected theorem pollThen {kind : PollKind} {f g : State → State} {e : Resp → State → State}
    (hf : WriteStep w s (f (snapshot u))) (hg : WriteStep w s (g (snapshot u)))
    (he : ∀ r, r = .overrun ∨ r = .modeFault → WriteStep w s (e r (snapshot u))) :
    WriteStep w s (pollThen kind f g e u) := by
  rcases pollThen_cases kind f g e u with ⟨-, p⟩ | ⟨-, p⟩ | ⟨-, p⟩ | ⟨-, p⟩ <;> rw [p]
  · exact hf
  · exact hg
  · exact he _ (.inl rfl)
  · exact he _ (.inr rfl)

/-- The element at the write cursor is sent, and the test of the cursor comes next. -/
protected theorem sendElem {t : State} (h : SentOnly w s u) (hm : sendElem w (writeTest w) u = .next t) :
    WriteStep w s t := by
  obtain ⟨hlt, rfl⟩ := sendElem_next_elemSent hm
  have hs : (u.wpos + 1#32).toNat = u.wpos.toNat + 1 := cursor_succ (BitVec.lt_def.2 hlt)
  have row : (u.wpos + 1#32).toNat ≤ u.n.toNat := by omega
  cases w <;> exact .inl ⟨rfl, row, h.sendElem hlt _⟩

end WriteStep

/-- Each micro-step of WR8 and WR16 (44_write R201 to R204, R208). The cursor alone is assumed, where `write_runsOn` asks for the
credit and the width too: the guarantee is of every start state. -/
theorem writeStep_of_microStep {w : Width} {s u t : State} (h : Writing w s u) (hm : microStep u = .next t) :
    WriteStep w s t := by
  obtain ⟨hq, hc, hd⟩ := h
  have hle := hc.sendOnly (inWrite_of_writeWidth hq)
  unfold microStep at hm
  cases e : u.seq <;> simp only [e, CursorsOk, writeWidth] at hm hq hc <;> cases hq
  case w8Setup | w16Setup | w8CapRead => cases hm; exact .inl ⟨rfl, hc, hd.of_quiet⟩
  case w8InitPoll | w16Poll =>
    cases hm
    exact .pollThen (.inl ⟨rfl, hc, hd.of_quiet⟩) (.inl ⟨rfl, hc, hd.of_quiet⟩) fun _ =>
      .respondError (u := snapshot u) hd.of_quiet hle
  case w8Test | w16Test =>
    cases hm
    split
    next hlt => exact .inl ⟨rfl, BitVec.lt_def.1 hlt, hd.of_quiet⟩
    next hlt =>
      rw [BitVec.lt_def] at hlt
      exact .inl ⟨rfl, hc.antisymm (Nat.le_of_not_lt hlt), hd.of_quiet⟩
  case w8Cap => cases hm; split <;> exact .inl ⟨rfl, hc, hd.of_quiet⟩
  case w8Send =>
    unfold wr8Send at hm
    split at hm
    · cases hm
    · exact .sendElem (u := { u with cap := u.cap - 1#3 }) hd.of_quiet hm
  case w16Send => exact .sendElem hd hm
  case w8FinalPoll | w16FinalPoll =>
    cases hm
    exact .pollThen (.finish hd.of_quiet hc) (.inl ⟨rfl, hc, hd.of_quiet⟩) fun _ _ => .finish hd.of_quiet hc

/-! ## The direction -/

/-- The data line is in one direction, out (10_state R28). -/
def SendDirection (u : State) : Prop := u.ctrl1.bidimode = true ∧ u.ctrl1.bidioe = true

/-- No micro-state of a send-only transfer turns the direction. -/
theorem sendDirection_directed {u : State} (hq : inWrite u.seq = true) (hd : SendDirection u) :
    SendDirection (directed u.seq u) := by
  unfold directed directionSet
  split
  case h_1 e | h_2 e => rw [e] at hq; cases hq
  case h_3 | h_4 => exact ⟨rfl, rfl⟩
  case h_5 => exact hd

/-- The first step of a send-only transfer sets the direction, and no other step changes it. -/
theorem sendDirection_of_microStep {w : Width} {u t : State} (hq : inWrite u.seq = true)
    (hd : u.seq = writeSetup w ∨ SendDirection u) (hm : microStep u = .next t) : SendDirection t := by
  have same : SameDirection (directed u.seq u) t :=
    (transfer_handleFrame (by rw [inTransfer, hq, Bool.or_true]) hm).sameDirection
  have set : SendDirection (directed u.seq u) := by
    obtain hd | hd := hd
    · rw [hd]
      cases w <;> exact ⟨rfl, rfl⟩
    · exact sendDirection_directed hq hd
  exact ⟨same.1.trans set.1, same.2.trans set.2⟩

/-! ## The guarantee -/

/-- In every run of a command without a block reset and without a move of the host the command is running or has ended; `Course`
is the same for runs that a block reset may end. -/
theorem runs_or_ended_of_run {running ended : State → Prop} (busy : ∀ u, running u → u.seq ≠ .idle)
    (next : ∀ u t, running u → microStep u = .next t → running t ∨ ended t) (idle : ∀ u, ended u → u.seq = .idle)
    {k : Nat} {s t : State} (hs : running s) (ho : s.outside = []) (hn : NoResetToCome s) (h : runSteps k s = .next t) :
    running t ∨ ended t := by
  refine (runSteps_keeps (P := fun u => (running u ∨ ended u) ∧ u.outside = [] ∧ NoResetToCome u) ?_ ⟨.inl hs, ho, hn⟩ h).1
  rintro u v ⟨hu, ho, hn⟩ hstep
  have hm := (step_next_microStep (noBlockReset_of_none hn) hstep).2
  rw [tick_none hn] at hm
  obtain hu | hu := hu
  · have frame := microStep_hostFrame (busy u hu) hm
    exact ⟨next u v hu hm, frame.outside.trans ho, frame.resets.trans hn⟩
  · rw [microStep_of_waiting (idle u hu) ho] at hm
    cases hm
    exact ⟨.inr hu, ho, hn⟩

/-- Settles O46: the end of the course of a send-only transfer, with the direction that its first step has set. -/
theorem sendOnlyGuarantee : Obligations.SendOnlyGuarantee := by
  intro w s t k hq _ _ hw ho hn h hidle
  have hq : s.seq = writeSetup w := by cases w <;> exact hq
  have next : ∀ u v, Writing w s u ∧ (u.seq = writeSetup w ∨ SendDirection u) → microStep u = .next v →
      (Writing w s v ∧ (v.seq = writeSetup w ∨ SendDirection v)) ∨ (WriteEnded w s v ∧ SendDirection v) := by
    rintro u v ⟨hu, hd⟩ hm
    have direction := sendDirection_of_microStep (inWrite_of_writeWidth hu.seq) hd hm
    exact (writeStep_of_microStep hu hm).imp (⟨·, .inr direction⟩) (⟨·, direction⟩)
  obtain ⟨running, -⟩ | ⟨⟨-, cursor, ok, resp, ⟨-, mem, sent, received⟩⟩, bidimode, bidioe⟩ :=
    runs_or_ended_of_run (fun _ hu => hu.1.ne_idle) next (fun _ hu => hu.1.seq) ⟨.start hq hw, .inl hq⟩ ho hn h
  · exact absurd hidle running.ne_idle
  · exact ⟨mem, received, bidimode, bidioe, sent, cursor, ok, resp⟩

end Sys2Proof.Machine
end

section
/-! PROOFS. WR8 and WR16 over the direct loopback ENV-LOOP0 (44_write R205, R209; 95_test_vectors section 0): it is always ready to
send, a level read gives full credit, and what is sent is discarded, so each micro-step brings the transfer nearer to its end. -/

namespace Sys2Proof.Machine

/-! ## Each micro-step over the loopback -/

/-- What no step of a send-only transfer changes over the loopback, its first step apart. -/
structure SameHandle (u t : State) : Prop where
  own : t.own = u.own := by rfl
  cfg : t.cfg = u.cfg := by rfl
  ctrl1 : t.ctrl1 = u.ctrl1 := by rfl
  ctrl2 : t.ctrl2 = u.ctrl2 := by rfl
  fault : t.fault = u.fault := by rfl
  resets : t.resets = u.resets := by rfl
  env : t.env = u.env := by rfl

theorem SameHandle.trans {s u t : State} (h : SameHandle s u) (k : SameHandle u t) : SameHandle s t :=
  ⟨k.own.trans h.own, k.cfg.trans h.cfg, k.ctrl1.trans h.ctrl1, k.ctrl2.trans h.ctrl2, k.fault.trans h.fault,
    k.resets.trans h.resets, k.env.trans h.env⟩

/-- Where a send-only transfer stands over the loopback after its first step: in `W8_SEND` with credit, in Idle with Ok. -/
def Streaming (u : State) : Prop :=
  match u.seq with
  | .w8Setup | .w16Setup => False
  | .w8Send => u.cap ≠ 0#3
  | .idle => u.resp = .ok
  | _ => True

/-- How far a send-only transfer is from its end over the loopback: at most this many steps. -/
def writeLeft (u : State) : Nat :=
  5 * (u.n.toNat - u.wpos.toNat) +
    match u.seq with
    | .w8InitPoll => 7
    | .w8Test | .w16Test => 6
    | .w8Cap => if u.cap = 0#3 then 5 else 3
    | .w8CapRead => 4
    | .w16Poll => 3
    | .w8Send | .w16Send => 2
    | .w8FinalPoll | .w16FinalPoll => 1
    | _ => 0

/-- The loopback discards the element sent, and the test of the cursor is nearer to the end than the send was. -/
theorem elemSent_streams {w : Width} {u : State} (hlt : u.wpos.toNat < u.n.toNat) (he : u.env = .loop0 [])
    (hb : u.ctrl1.bidimode = true) (q : Seq) : SameHandle u (elemSent w q u) ∧
      5 * ((elemSent w q u).n.toNat - (elemSent w q u).wpos.toNat) + 6 < 5 * (u.n.toNat - u.wpos.toNat) + 2 := by
  have hs : (u.wpos + 1#32).toNat = u.wpos.toNat + 1 := cursor_succ (BitVec.lt_def.2 hlt)
  refine ⟨{ env := by simp only [elemSent, envAfterWrite, he, hb]; rfl }, ?_⟩
  simp only [elemSent, hs]
  omega

/-- Each micro-step of WR8 and WR16 over the loopback, after the first. -/
theorem write_streams {u : State} (hq : inWrite u.seq = true) (hc : CursorsOk u) (hu : Streaming u) (he : u.env = .loop0 [])
    (hb : u.ctrl1.bidimode = true) :
    ∃ t, microStep u = .next t ∧ SameHandle u t ∧ Streaming t ∧ writeLeft t < writeLeft u := by
  have ready : poll .send (envStatus u.env u.draws) = .ready := by rw [he]; rfl
  have polled : (snapshot u).env = u.env := by rw [snapshot_env, he]; rfl
  unfold microStep
  unfold writeLeft
  cases e : u.seq <;> simp only [e, CursorsOk, Streaming] at hq hc hu ⊢
  case w8InitPoll =>
    rw [wr8InitPoll, pollThen_of_ready ready]
    exact ⟨_, rfl, { env := polled }, trivial, by simp⟩
  case w16Poll =>
    rw [wr16Poll, pollThen_of_ready ready]
    exact ⟨_, rfl, { env := polled }, trivial, by simp⟩
  case w8Test =>
    rw [wr8Test]
    split
    next => exact ⟨_, rfl, {}, trivial, by by_cases h : u.cap = 0#3 <;> simp [h]⟩
    next => exact ⟨_, rfl, {}, trivial, by simp⟩
  case w16Test =>
    rw [wr16Test]
    split <;> exact ⟨_, rfl, {}, trivial, by simp⟩
  case w8Cap =>
    rw [wr8Cap]
    split
    next => exact ⟨_, rfl, {}, trivial, by simp⟩
    next credit => exact ⟨_, rfl, {}, credit, by simp⟩
  case w8CapRead =>
    have full : txcap (envLevel u.env u.draws) = 4#3 := by rw [he]; rfl
    have read : (readLevel u).env = u.env := by rw [readLevel_env, he]; rfl
    exact ⟨_, rfl, { env := read }, trivial, by simp [full]⟩
  case w8Send =>
    obtain ⟨same, near⟩ := elemSent_streams (u := { u with cap := u.cap - 1#3 }) hc he hb .w8Test
    rw [wr8Send_of_credit hu]
    exact ⟨_, sendElem_of_toNat_lt (by exact hc) _, .trans {} same, trivial, near⟩
  case w16Send =>
    obtain ⟨same, near⟩ := elemSent_streams hc he hb .w16Test
    exact ⟨_, sendElem_of_toNat_lt hc _, same, trivial, near⟩
  case w8FinalPoll =>
    rw [wr8FinalPoll, finalPoll_of_not_wouldBlock (by rw [ready]; nofun)]
    exact ⟨_, rfl, { env := polled }, rfl, by simp⟩
  case w16FinalPoll =>
    rw [wr16FinalPoll, finalPoll_of_not_wouldBlock (by rw [ready]; nofun)]
    exact ⟨_, rfl, { env := polled }, rfl, by simp⟩
  all_goals cases hq

/-! ## The whole run -/

/-- The second micro-state of the send-only transfer of each width. -/
def afterSetup : Width → Seq
  | .w8 => .w8InitPoll
  | .w16 => .w16Test

/-- The state after the first step of a send-only transfer (44_write R201, R208). -/
def directedOut (w : Width) (s : State) : State := goto (afterSetup w) (regWrite [.bidimode true, .bidioe true] s)

theorem microStep_writeSetup {w : Width} {s : State} (hq : s.seq = writeSetup w) :
    microStep s = .next (directedOut w s) := by
  unfold microStep
  cases w <;> rw [hq] <;> rfl

theorem directedOut_ctrl1 (w : Width) (s : State) :
    (directedOut w s).ctrl1 = { s.ctrl1 with bidimode := true, bidioe := true } := by
  rw [directedOut, regWrite_other rfl]; rfl

/-- A send-only transfer over the loopback runs to its end with Ok. -/
theorem write_ends {w : Width} {s : State} (hq : s.seq = writeSetup w) (hf : s.fault = .noFault) (hn : NoResetToCome s)
    (hw : s.wpos = 0#32) (he : s.env = .loop0 []) :
    ∃ k u, runSteps k s = .next u ∧ WriteEnded w s u ∧ u.resp = .ok ∧ SameHandle (directedOut w s) u := by
  have start : Writing w s (directedOut w s) ∧ Streaming (directedOut w s) := by
    have done : SentOnly w s (directedOut w s) :=
      (SentOnly.start hw).of_quiet (sent := by simp [directedOut, sentValues])
        (received := by simp [directedOut, receivedValues])
    have row : s.wpos.toNat ≤ s.n.toNat := by simp [hw]
    cases w <;> exact ⟨⟨rfl, row, done⟩, trivial⟩
  have next : ∀ u, (Writing w s u ∧ Streaming u) ∧ SameHandle (directedOut w s) u → ∃ t, step u = .next t ∧
      ((WriteEnded w s t ∧ t.resp = .ok ∧ SameHandle (directedOut w s) t) ∨
        ((Writing w s t ∧ Streaming t) ∧ SameHandle (directedOut w s) t) ∧ writeLeft t < writeLeft u) := by
    rintro u ⟨⟨hu, hs⟩, same⟩
    have out : u.ctrl1.bidimode = true := by rw [same.ctrl1, directedOut_ctrl1]
    obtain ⟨t, hm, same', hs', nearer⟩ :=
      write_streams (inWrite_of_writeWidth hu.seq) hu.cursors hs (same.env.trans he) out
    rw [step_eq_microStep_of_none (same.fault.trans hf) (same.resets.trans hn)]
    refine ⟨t, hm, ?_⟩
    obtain running | ended := writeStep_of_microStep hu hm
    · exact .inr ⟨⟨⟨running, hs'⟩, same.trans same'⟩, nearer⟩
    · rw [Streaming, ended.seq] at hs'
      exact .inl ⟨ended, hs', same.trans same'⟩
  obtain ⟨k, u, hrun, hu⟩ := run_ends next ⟨start, {}⟩
  exact ⟨k + 1, u, runSteps_microStep hf hn (microStep_writeSetup hq) hrun, hu⟩

/-- What the run of a send-only transfer over the loopback comes to (44_write R205, R209). -/
theorem write_result {w : Width} {s : State} (hq : s.seq = writeSetup w) (hf : s.fault = .noFault) (hn : NoResetToCome s)
    (hw : s.wpos = 0#32) (he : s.env = .loop0 []) :
    ∃ k u, runSteps k s = .next u ∧ EndedWell .ok u ∧ u.own = s.own ∧ u.cfg = s.cfg ∧ u.wpos.toNat = s.n.toNat ∧
      u.ctrl1 = { s.ctrl1 with bidimode := true, bidioe := true } ∧ u.ctrl2 = s.ctrl2 ∧
      sentValues u.log = sentValues s.log ++ bufferElems w s.mem s.n.toNat ∧
      receivedValues u.log = receivedValues s.log ∧ u.mem = s.mem := by
  obtain ⟨k, u, hrun, ⟨seq, -, all, -, ⟨-, mem, sent, received⟩⟩, ok, same⟩ := write_ends hq hf hn hw he
  have wpos : u.wpos.toNat = s.n.toNat := congrArg BitVec.toNat (all ok)
  rw [wpos] at sent
  exact ⟨k, u, hrun, ⟨seq, same.fault.trans hf, ok⟩, same.own, same.cfg, wpos, same.ctrl1.trans (directedOut_ctrl1 w s),
    same.ctrl2, sent, received, mem⟩

/-- Settles O43: acceptance, and the run over the loopback to its end. -/
theorem sendOnlyCompletes : Obligations.SendOnlyCompletes := by
  intro n s h hn hlen he
  obtain ⟨-, -, accepted8, accepted16⟩ := transfersAccepted n s h hlen
  refine ⟨fun hw => ?_, fun hw => ?_⟩
  · obtain ⟨k, u, result⟩ := write_result (w := .w8) (s := { s with
      n := BitVec.ofNat 32 n, wpos := 0#32, cap := 0#3, resp := .none, seq := .w8Setup }) rfl h.1.2 hn rfl he
    rw [toNat_ofNat_length hlen] at result
    exact ⟨_, k, u, accepted8 hw, result⟩
  · obtain ⟨k, u, result⟩ := write_result (w := .w16) (s := { s with
      n := BitVec.ofNat 32 n, wpos := 0#32, resp := .none, seq := .w16Setup }) rfl h.1.2 hn rfl he
    rw [toNat_ofNat_length hlen] at result
    exact ⟨_, k, u, accepted16 hw, result⟩

end Sys2Proof.Machine
end

section
/-! PROOFS. The exceptions of 60_exceptions that lie outside the transfers: a configuration command gives no error response
(R223), and the sequencer fault stays until the block reset (R226; 70_reset_and_hazards R260). -/

namespace Sys2Proof.Machine

/-! ## The configuration commands -/

/-- What a micro-step of a configuration command does to the response, the fault and the snapshots (60_exceptions R223): it
leaves the response or answers Ok, leaves the fault unless it is `C_CTRL`, and logs no status snapshot. -/
structure NoErrorStep (s t : State) : Prop where
  resp : t.resp = s.resp ∨ t.resp = .ok
  fault : t.fault = s.fault ∨ s.seq = .cCtrl
  log : ∃ new, t.log = s.log ++ new ∧ snapshotsSeen new = []

/-- A micro-step in the middle of a command leaves the response, the last one answers Ok; `C_CTRL` writes the controller fields
or raises the fault with no access made, and `L_REL` makes none either (41_config R131 to R146). -/
theorem configuration_noErrorStep {s t : State} (hq : inConfiguration s.seq = true) (h : microStep s = .next t) :
    NoErrorStep s t := by
  unfold microStep at h
  cases e : s.seq <;> simp only [e] at h hq
  case cClk | cRstA | cRstD | cDis | cWidth | pClk | pRstA | pRstD | pDis | pCtrl | pWidth | sSave1 | sSave2 | sRstA | sRstD |
      sRest1 =>
    cases h; exact ⟨.inl rfl, .inl rfl, _, rfl, rfl⟩
  case cEn | pEn | eWrite | dWrite | vWrite | sRest2 => cases h; exact ⟨.inr rfl, .inl rfl, _, rfl, rfl⟩
  case lRel => cases h; exact ⟨.inr rfl, .inl rfl, [], (List.append_nil _).symm, rfl⟩
  case cCtrl =>
    unfold cfgcCtrl at h
    split at h <;> cases h
    · exact ⟨.inl rfl, .inr e, [], (List.append_nil _).symm, rfl⟩
    · exact ⟨.inl rfl, .inl rfl, _, rfl, rfl⟩
  all_goals cases hq

/-- Settles O26: the step is a micro-step of the ticked state, which has the same response, fault and log. -/
theorem configurationGivesNoError : Obligations.ConfigurationGivesNoError := by
  intro s t hq hnone hb h
  obtain ⟨hf, hm⟩ := step_next_microStep hb h
  obtain ⟨resp, fault, new, log, unseen⟩ := configuration_noErrorStep (s := tick s) hq hm
  refine ⟨resp.imp_left (·.trans hnone), fault.imp_left (·.trans hf), ?_⟩
  rw [log, snapshotsSeen_append, unseen, List.append_nil, tick_log]

/-! ## The faulted sequencer -/

/-- A faulted sequencer does not wait for the next block reset: it is due whenever one is to come (log 8). -/
theorem resetDue_of_faulted {s : State} {k : Nat} {rest : List Nat} (hf : s.fault = .divisorUndefined)
    (hr : s.resets = k :: rest) : resetDue s = true := by
  simp [resetDue, hr, hf]

/-- Settles O59: no step while no block reset is to come; else the step is the block reset, and each field is as it leaves it. -/
theorem faultIsSticky : Obligations.FaultIsSticky := by
  intro s hf
  refine ⟨fun hn => step_of_faulted hf (noBlockReset_of_none hn), fun k rest hr => ?_⟩
  have left : (takeReset s).resets = rest := congrArg List.tail hr
  exact ⟨_, step_due (resetDue_of_faulted hf hr), rfl, rfl, rfl, rfl, rfl, rfl, rfl, rfl, rfl, rfl, rfl, rfl, rfl, left, rfl⟩

end Sys2Proof.Machine
end

section
/-! PROOFS. The block reset can come at any step (70_reset_and_hazards R260, R276): no micro-step looks at when it comes, so it
changes none before it; and in each place where 60_exceptions R233 lets a command stay, one more read that shows the condition
leaves it there. -/

namespace Sys2Proof.Machine

/-! ## When the block resets come makes no difference to a micro-step -/

/-- `s` with these block resets to come instead of its own (log 8). -/
def withResets (r : List Nat) (s : State) : State := { s with resets := r }

/-- The update `g` neither looks at when the block resets come nor changes it. -/
def Timeless (g : State → State) : Prop := ∀ r s, g (withResets r s) = withResets r (g s)

/-- The same of a step, where it answers a next state. -/
def TimelessStep (f : State → Result) : Prop := ∀ r s t, f s = .next t → f (withResets r s) = .next (withResets r t)

theorem Timeless.step {g : State → State} (h : Timeless g) : TimelessStep fun s => .next (g s) := by
  intro r s t e
  cases e
  exact congrArg Host.Outcome.next (h r s)

theorem timeless_ite {p : State → Prop} [DecidablePred p] {f g : State → State} (hp : ∀ r s, p (withResets r s) ↔ p s)
    (hf : Timeless f) (hg : Timeless g) : Timeless fun s => if p s then f s else g s := by
  intro r s
  simp only [hp, hf r s, hg r s, apply_ite (withResets r)]

theorem timeless_pollThen {f g : State → State} {e : Resp → State → State} (hf : Timeless f) (hg : Timeless g)
    (he : ∀ p, Timeless (e p)) (kind : PollKind) : Timeless (pollThen kind f g e) := by
  intro r s
  have same : snapshot (withResets r s) = withResets r (snapshot s) := rfl
  have stat : (withResets r (snapshot s)).stat = (snapshot s).stat := rfl
  unfold pollThen
  rw [same, stat]
  cases poll kind (snapshot s).stat
  · exact hf r _
  · exact hg r _
  · exact he _ r _
  · exact he _ r _

theorem timeless_respondError (p : Resp) : Timeless (respondError p) := by
  intro r s
  cases p <;> rfl

theorem timeless_failTransfer (w : Width) (p : Resp) : Timeless (failTransfer w p) := fun r s =>
  timeless_respondError p r { s with mem := unspecify (elemAddr w s.rpos.toNat) (elemAddr w s.n.toNat) s.mem }

theorem timeless_drainBlocked : Timeless drainBlocked :=
  timeless_ite (fun _ _ => Iff.rfl) (fun _ _ => rfl) (timeless_failTransfer .w8 .incomplete)

theorem timelessStep_sendElem (w : Width) (q : Seq) : TimelessStep (sendElem w q) := by
  intro r s t h
  obtain ⟨hlt, rfl⟩ := sendElem_next h
  exact sendElem_of_lt (s := withResets r s) hlt

theorem timelessStep_storeElem (w : Width) (q : Seq) : TimelessStep (storeElem w q) := by
  intro r s t h
  obtain ⟨hlt, rfl⟩ := storeElem_next h
  exact storeElem_of_lt (s := withResets r s) hlt

theorem timelessStep_wr8Send : TimelessStep wr8Send := by
  intro r s t h
  unfold wr8Send at h
  split at h
  next => cases h
  next credit =>
    rw [wr8Send_of_credit (s := withResets r s) credit]
    exact timelessStep_sendElem .w8 .w8Test r { s with cap := s.cap - 1#3 } t h

theorem timelessStep_cfgcCtrl : TimelessStep cfgcCtrl := by
  intro r s t h
  have rates : divisor (withResets r s).fin (withResets r s).freq = divisor s.fin s.freq := rfl
  unfold cfgcCtrl at h ⊢
  rw [rates]
  cases hd : divisor s.fin s.freq <;> rw [hd] at h <;> cases h <;> rfl

theorem timelessStep_xfer8Final : TimelessStep xfer8Final :=
  Timeless.step <| timeless_ite (fun _ _ => Iff.rfl) (fun _ _ => rfl) (fun _ _ => rfl)

theorem timelessStep_xfer16Test : TimelessStep xfer16Test :=
  Timeless.step <| timeless_ite (fun _ _ => Iff.rfl) (fun _ _ => rfl) (fun _ _ => rfl)

/-! ### A move from outside -/

theorem accept_withResets {lawful : Bool} {latch : State → State} (hl : Timeless latch) (r : List Nat) {s t : State}
    (h : accept lawful latch s = .next t) : accept lawful latch (withResets r s) = .next (withResets r t) := by
  obtain ⟨hr, ⟨lawful, rfl⟩ | ⟨unlawful, rfl⟩⟩ := accept_next h
  · rw [accept_lawful (s := withResets r s) hr lawful, ← hl]; rfl
  · exact accept_unlawful (s := withResets r s) hr unlawful

theorem timelessStep_exec (i : Instr) : TimelessStep (exec i) := by
  intro r s t h
  cases i <;> simp only [exec] at h ⊢
  all_goals
    refine accept_withResets (fun _ _ => ?_) r h
    rfl

theorem timeless_hostWrite (fs : List FieldVal) : Timeless (hostWrite fs) :=
  timeless_ite (fun _ _ => Iff.rfl) (fun _ _ => rfl) (timeless_ite (fun _ _ => Iff.rfl) (fun _ _ => rfl) fun _ _ => rfl)

theorem timelessStep_takeMove (m : OutsideMove) : TimelessStep (takeMove m) := by
  intro r s t h
  cases m with
  | present c =>
    simp only [takeMove, acceptWord] at h ⊢
    cases hd : decode c <;> simp only [hd] at h ⊢
    · cases h; rfl
    · exact timelessStep_exec _ r s t h
  | store w i v => cases h; rfl
  | fieldWrite fs =>
    simp only [takeMove] at h ⊢
    split at h
    next free =>
      cases h
      rw [if_pos (show (withResets r s).own = .free from free), timeless_hostWrite]
    next => cases h
  | setClock f => cases h; rfl

theorem timelessStep_idleStep : TimelessStep idleStep := by
  intro r s t h
  have outside : (withResets r s).outside = s.outside := rfl
  unfold idleStep at h ⊢
  rw [outside]
  cases ho : s.outside with
  | nil => rw [ho] at h; cases h; rfl
  | cons m rest => rw [ho] at h; exact timelessStep_takeMove m r { s with outside := rest } t h

/-! ### Every micro-step -/

/-- No micro-step looks at when the block resets come, or changes it (10_state R24; log 8). -/
theorem timelessStep_microStep : TimelessStep microStep := by
  intro r s t h
  have seq : (withResets r s).seq = s.seq := rfl
  unfold microStep at h ⊢
  cases e : s.seq <;> simp only [seq, e] at h ⊢
  case idle => exact timelessStep_idleStep r s t h
  case cCtrl => exact timelessStep_cfgcCtrl r s t h
  case x8FillPoll | x8ReadPoll | x16SendPoll | x16RecvPoll =>
    exact (timeless_pollThen (fun _ _ => rfl) (fun _ _ => rfl) (timeless_failTransfer _) _).step r s t h
  case x8DrainPoll =>
    exact (timeless_pollThen (fun _ _ => rfl) timeless_drainBlocked (timeless_failTransfer _) _).step r s t h
  case w8InitPoll | w16Poll =>
    exact (timeless_pollThen (fun _ _ => rfl) (fun _ _ => rfl) timeless_respondError _).step r s t h
  case w8FinalPoll | w16FinalPoll =>
    exact (timeless_pollThen (fun _ _ => rfl) (fun _ _ => rfl) (fun _ _ _ => rfl) _).step r s t h
  case x8FillSend | x16Send | w16Send => exact timelessStep_sendElem _ _ r s t h
  case w8Send => exact timelessStep_wr8Send r s t h
  case x8ReadStore | x16Store => exact timelessStep_storeElem _ _ r s t h
  case x8DrainStore => exact timelessStep_storeElem _ _ r { s with tries := 0 } t h
  case x8Final => exact timelessStep_xfer8Final r s t h
  case x16Test => exact timelessStep_xfer16Test r s t h
  all_goals cases h; rfl

/-! ## A block reset that is to come later -/

theorem withResets_self {r : List Nat} {s : State} (h : s.resets = r) : withResets r s = s := by rw [← h]; rfl

/-- Where no block reset is to come, none is after a step. -/
theorem noResetToCome_of_step {s t : State} (hn : NoResetToCome s) (h : step s = .next t) : NoResetToCome t := by
  obtain ⟨-, hm⟩ := step_next_microStep (noBlockReset_of_none hn) h
  rw [tick_none hn] at hm
  have same := timelessStep_microStep [] s t hm
  rw [withResets_self hn, hm] at same
  injection same with same
  rw [same]
  rfl

/-- A block reset that is to come after more steps changes nothing of this one (70_reset_and_hazards R276). -/
theorem step_before_reset {s t : State} (h : step (withResets [] s) = .next t) (k : Nat) (rest : List Nat) :
    step (withResets ((k + 1) :: rest) s) = .next (withResets (k :: rest) t) := by
  obtain ⟨hf, hm⟩ := step_next_microStep (noBlockReset_of_none rfl) h
  have hb : noBlockReset (withResets ((k + 1) :: rest) s) = true := by
    rw [noBlockReset_iff, resetDue]
    exact decide_eq_false (not_not_intro hf)
  rw [step_eq_microStep (s := withResets ((k + 1) :: rest) s) hf hb]
  exact timelessStep_microStep (k :: rest) (tick (withResets [] s)) t hm

/-- Nor of any step of a run that is over when it is due. -/
theorem runSteps_before_reset {k : Nat} {s t : State} (h : runSteps k (withResets [] s) = .next t) (rest : List Nat) :
    runSteps k (withResets (k :: rest) s) = .next (withResets (0 :: rest) t) := by
  induction k generalizing s with
  | zero => cases h; rfl
  | succ k ih =>
    obtain ⟨u, hu, hk⟩ := runSteps_succ_next h
    rw [← withResets_self (noResetToCome_of_step rfl hu)] at hk
    exact runSteps_first (step_before_reset hu k rest) (ih hk)

/-! ## The places where a command may stay for ever -/

theorem poll_of_statusesFor_both {k : Nat} {e : Env} {d : Nat}
    (h : statusesFor (fun st => blocks .send st && blocks .recv st) (k + 1) e d = true) (kind : PollKind) :
    poll kind (envStatus e d) = .wouldBlock := by
  obtain ⟨send, recv⟩ := Bool.and_eq_true_iff.1 (Bool.and_eq_true_iff.1 h).1
  cases kind
  · exact of_decide_eq_true send
  · exact of_decide_eq_true recv

/-- `t` is in the round of micro-states in which the command of `s` is stuck, with the handle and the response as in `s`. -/
structure StaysStuck (s t : State) : Prop where
  seq : t.seq ∈ stuckLoop s.seq
  own : t.own = s.own := by rfl
  resp : t.resp = s.resp := by rfl
  fault : t.fault = s.fault := by rfl
  resets : t.resets = s.resets := by rfl

theorem mem_stuckLoop (q : Seq) : q ∈ stuckLoop q := by
  unfold stuckLoop
  split <;> simp

theorem stuckLoop_eq_of_mem {p q : Seq} (h : p ∈ stuckLoop q) : stuckLoop p = stuckLoop q := by
  cases q <;> simp only [stuckLoop, List.mem_cons, List.not_mem_nil, or_false] at h
  case x8Main | x8Fill | x8FillPoll | x8ReadPoll => obtain rfl | rfl | rfl | rfl := h <;> rfl
  case w8Cap | w8CapRead => obtain rfl | rfl := h <;> rfl
  all_goals rw [h]

theorem StaysStuck.trans {s u t : State} (h : StaysStuck s u) (k : StaysStuck u t) : StaysStuck s t where
  seq := stuckLoop_eq_of_mem h.seq ▸ k.seq
  own := k.own.trans h.own
  resp := k.resp.trans h.resp
  fault := k.fault.trans h.fault
  resets := k.resets.trans h.resets

/-- While the environment shows the condition, a micro-step stays in the round, and uses up at most one read of it
(60_exceptions R233). -/
theorem microStep_stuck {k : Nat} {s : State} (h : stuckFor (k + 1) s) :
    ∃ t, microStep s = .next t ∧ StaysStuck s t ∧ stuckFor k t := by
  unfold microStep
  cases e : s.seq <;> simp only [stuckFor, e] at h ⊢
  case x8Main | x8Fill =>
    obtain ⟨hlt, hs⟩ := h
    exact ⟨_, congrArg (fun q => Host.Outcome.next (goto q s)) (if_pos hlt), { seq := by simp [e, stuckLoop] },
      And.intro hlt (statusesFor_of_succ hs)⟩
  case x8FillPoll | x8ReadPoll =>
    obtain ⟨hlt, hs⟩ := h
    exact ⟨_, congrArg Host.Outcome.next (pollThen_of_wouldBlock (poll_of_statusesFor_both hs _) ..),
      { seq := by simp [e, stuckLoop] }, And.intro hlt (Bool.and_eq_true_iff.1 hs).2⟩
  case x8DrainPoll =>
    obtain ⟨hd, hs⟩ := h
    obtain ⟨now, next⟩ := Bool.and_eq_true_iff.1 hs
    have left : retriesLeft s.tries s.drainRetries = true := by rw [hd]; rfl
    rw [xfer8DrainPoll, pollThen_of_wouldBlock (of_decide_eq_true now), drainBlocked_of_left (s := snapshot s) left]
    exact ⟨_, rfl, { seq := by simp [e, stuckLoop] }, And.intro hd next⟩
  case x16SendPoll | x16RecvPoll | w8InitPoll | w16Poll | w8FinalPoll | w16FinalPoll =>
    obtain ⟨now, next⟩ := Bool.and_eq_true_iff.1 h
    exact ⟨_, congrArg Host.Outcome.next (pollThen_of_wouldBlock (of_decide_eq_true now) ..),
      { seq := by simp [e, stuckLoop] }, next⟩
  case w8Cap =>
    obtain ⟨hc, hl⟩ := h
    exact ⟨_, congrArg (fun q => Host.Outcome.next (goto q s)) (if_pos hc), { seq := by simp [e, stuckLoop] },
      levelsFor_of_succ hl⟩
  case w8CapRead =>
    obtain ⟨now, next⟩ := Bool.and_eq_true_iff.1 h
    exact ⟨_, rfl, { seq := by simp [e, stuckLoop] }, And.intro (of_decide_eq_true now) next⟩

/-- `k` reads that show the condition hold the command for `k` steps. -/
theorem runSteps_stuck {k : Nat} {s : State} (hf : s.fault = .noFault) (hn : NoResetToCome s) (h : stuckFor k s) :
    ∃ t, runSteps k s = .next t ∧ StaysStuck s t := by
  induction k generalizing s with
  | zero => exact ⟨s, rfl, { seq := mem_stuckLoop s.seq }⟩
  | succ k ih =>
    obtain ⟨u, hm, hu, hk⟩ := microStep_stuck h
    obtain ⟨t, hrun, ht⟩ := ih (hu.fault.trans hf) (hu.resets.trans hn) hk
    exact ⟨t, runSteps_microStep hf hn hm hrun, hu.trans ht⟩

/-- Settles O60: a reset that is due is the step; no micro-step looks at when one comes, so a command that stays where it is with
no reset to come stays there as long with one set for the step after. -/
theorem blockResetComesAnyTime : Obligations.BlockResetComesAnyTime := by
  refine ⟨fun s hd => ?_, fun s t k rest _ h => step_before_reset (s := s) h k rest, fun s k hf hs => ?_⟩
  · exact ⟨_, step_due hd, rfl, rfl, rfl, rfl, rfl, rfl, rfl, rfl, rfl, rfl, rfl, rfl, rfl, rfl, rfl, rfl, rfl⟩
  · obtain ⟨t, hrun, stays⟩ := runSteps_stuck (s := withResets [] s) hf rfl hs
    have set_for_then : ∀ rest, s.resets = k :: rest → runSteps k s = .next (withResets (0 :: rest) t) := by
      intro rest hr
      have run := runSteps_before_reset hrun rest
      rwa [withResets_self hr] at run
    refine ⟨?_, fun rest hr => ?_⟩
    · rintro (hn | ⟨rest, hr⟩)
      · rw [withResets_self hn] at hrun
        exact ⟨t, hrun, stays.seq, stays.own, stays.resp, stays.fault.trans hf⟩
      · exact ⟨_, set_for_then rest hr, stays.seq, stays.own, stays.resp, stays.fault.trans hf⟩
    · exact ⟨_, (runSteps_trans (set_for_then rest hr)).trans (runSteps_first (step_due rfl) rfl), rfl, rfl, rfl, rfl⟩

end Sys2Proof.Machine
end
